-- ==== Sys2Proof/Word.lean ====
section
/-! DEFINITION. The word types of the foreground sequencer and their plainest arithmetic (spec 00_scope.md R13, R14). -/

namespace Sys2Proof

/-- A 32-bit pattern, the content of a written foreground register (R13, R34). -/
abbrev Word := BitVec 32

/-- A 16-bit command word (R13, R70). -/
abbrev CommandWord := BitVec 16

/-- One byte of a serialised program image (R54). -/
abbrev Byte := BitVec 8

end Sys2Proof
end

