-- ==== Sys2Proof/Config.lean ====
section
/-! DEFINITION. The parameters a model of the block takes (spec 00_scope.md R8-R12, 10_state.md R39), the threshold
derived from them (44_actuator.md R170), and the one free value: which enabled step is taken when no schedule says. -/

namespace Sys2Proof

/-- EDGE_POLICY (R10): what the handler does on the two transitions the source does not list (R132). -/
inductive EdgePolicy where
  | level
  | strict
deriving DecidableEq, Repr

/-- PEND_WHILE_DISARMED (R10): whether an edge while disarmed sets the pending flag (R120). -/
inductive PendPolicy where
  | latch
  | noLatch
  | either
deriving DecidableEq, Repr

/-- SCALE_MODE (R10): the arithmetic of `scaled = duration - baseline_ticks` (R172). -/
inductive ScaleMode where
  | signed
  | wrap
deriving DecidableEq, Repr

/-- A non-negative rational number, written as a numerator over a denominator (PCT, R9). -/
structure Ratio where
  num : Nat
  den : Nat
deriving DecidableEq, Repr

/-- The program memory PROG (R11, R51): PLEN command words, indexed 0 to PLEN - 1. The block has no other addressable
store (R50), so this list is the whole of memory, and equal memories are equal lists. -/
abbrev Memory := List CommandWord

/-- The bounds 1 ≤ PLEN ≤ 65536 of R11. -/
def Memory.wf (m : Memory) : Bool := decide (1 ≤ m.length) && decide (m.length ≤ 65536)

/-- The configuration (R39): fixed for a run, never written by a step. `prescale`, `fClk` and `outActiveHigh` are the
informational parameters of R12, which no rule reads; `none` says that the source gives no value (N4, N10). -/
structure Config where
  width : Nat
  baseline : Nat
  fullscale : Nat
  pct : Ratio
  edgePolicy : EdgePolicy
  pendWhileDisarmed : PendPolicy
  scaleMode : ScaleMode
  durAtomic : Bool
  prog : Memory
  prescale : Option Nat
  fClk : Option Nat
  outActiveHigh : Option Bool
deriving DecidableEq, Repr

/-- The number of values of the counter, 2^W (R8, R14). -/
abbrev Config.modulus (c : Config) : Nat := 2 ^ c.width

/-- PLEN (R11). -/
abbrev Config.plen (c : Config) : Nat := c.prog.length

/-- TH = floor(PCT × FULLSCALE / 100), in exact arithmetic (R170). -/
def Config.threshold (c : Config) : Nat := c.pct.num * c.fullscale / (c.pct.den * 100)

/-- Which of the steps enabled at a point is taken, when the state's schedule says nothing: a FREE VALUE of the model
(R226 fixes no order between agents). It has no body, so nothing can be proved of the order it picks. -/
opaque Config.freeTurn : Nat → Nat

end Sys2Proof
end

