-- ==== Sys2Proof/Syntax.lean ====
section
/-! DEFINITION. The 21 operations of spec/opcode_table.json (30_encoding.md R79), one constructor a row, with the
operands of their formats (R71-R76) as the values they stand for (R77, R78). -/

namespace Sys2Proof

/-- A foreground register, named by a 2-bit field (R77). -/
inductive Reg where
  | r0
  | r1
  | r2
  | r3
deriving DecidableEq, Repr

/-- The register's number, the value of its field (R77). -/
def Reg.number : Reg → Nat
  | .r0 => 0
  | .r1 => 1
  | .r2 => 2
  | .r3 => 3

/-- The operations. An immediate is the number it stands for: LDI's an unsigned one, a branch offset a signed one
counted in words (R78). -/
inductive Instr where
  | tstart
  | tstop
  | tread
  | treset
  | esample
  | edisable
  | eenable
  | eclrpend
  | rdyset
  | rdyclr
  | rdytst (rd : Reg)
  | durwr
  | durrd (rd : Reg)
  | scale (rd rs : Reg)
  | cmpth (rd rs : Reg)
  | outset (rs : Reg)
  | ldi (rd : Reg) (imm : Nat)
  | bz (ra : Reg) (off : Int)
  | bnz (ra : Reg) (off : Int)
  | jmp (off : Int)
  | stop
deriving DecidableEq, Repr

/-- Which agent may issue an operation: the column "context" of R79. -/
inductive Context where
  | handler
  | both
  | foreground
deriving DecidableEq, Repr

/-- The context column of R79. -/
def Instr.context : Instr → Context
  | .tstart => .handler
  | .tstop => .handler
  | .tread => .handler
  | .treset => .handler
  | .esample => .handler
  | .edisable => .both
  | .eenable => .foreground
  | .eclrpend => .foreground
  | .rdyset => .handler
  | .rdyclr => .foreground
  | .rdytst _ => .foreground
  | .durwr => .handler
  | .durrd _ => .foreground
  | .scale _ _ => .foreground
  | .cmpth _ _ => .foreground
  | .outset _ => .foreground
  | .ldi _ _ => .foreground
  | .bz _ _ => .foreground
  | .bnz _ _ => .foreground
  | .jmp _ => .foreground
  | .stop => .foreground

/-- The mnemonic, as the opcode table spells it (R79). -/
def Instr.mnemonic : Instr → String
  | .tstart => "TSTART"
  | .tstop => "TSTOP"
  | .tread => "TREAD"
  | .treset => "TRESET"
  | .esample => "ESAMPLE"
  | .edisable => "EDISABLE"
  | .eenable => "EENABLE"
  | .eclrpend => "ECLRPEND"
  | .rdyset => "RDYSET"
  | .rdyclr => "RDYCLR"
  | .rdytst _ => "RDYTST"
  | .durwr => "DURWR"
  | .durrd _ => "DURRD"
  | .scale _ _ => "SCALE"
  | .cmpth _ _ => "CMPTH"
  | .outset _ => "OUTSET"
  | .ldi _ _ => "LDI"
  | .bz _ _ => "BZ"
  | .bnz _ _ => "BNZ"
  | .jmp _ => "JMP"
  | .stop => "STOP"

/-- The registers an operation reads: SCALE, CMPTH, OUTSET, BZ and BNZ read one each (R212). -/
def Instr.sources : Instr → List Reg
  | .tstart => []
  | .tstop => []
  | .tread => []
  | .treset => []
  | .esample => []
  | .edisable => []
  | .eenable => []
  | .eclrpend => []
  | .rdyset => []
  | .rdyclr => []
  | .rdytst _ => []
  | .durwr => []
  | .durrd _ => []
  | .scale _ rs => [rs]
  | .cmpth _ rs => [rs]
  | .outset rs => [rs]
  | .ldi _ _ => []
  | .bz ra _ => [ra]
  | .bnz ra _ => [ra]
  | .jmp _ => []
  | .stop => []

end Sys2Proof
end

