-- ==== Sys2Proof/WellFormed.lean ====
section
/-! DEFINITION. Which instructions have an encoding (30_encoding.md R78, R83: LDI takes 0 to 255, a branch offset lies in
[-128, 127]), and which configurations are given a meaning (44_actuator.md R171, 00_scope.md R11). -/

namespace Sys2Proof

/-- A branch offset that fits the signed 8-bit field (R78). -/
def offsetFits (off : Int) : Bool := decide (-128 ≤ off) && decide (off ≤ 127)

/-- An instruction every operand of which fits its field. A register always fits (R77: every value is legal). -/
def Instr.wf : Instr → Bool
  | .tstart => true
  | .tstop => true
  | .tread => true
  | .treset => true
  | .esample => true
  | .edisable => true
  | .eenable => true
  | .eclrpend => true
  | .rdyset => true
  | .rdyclr => true
  | .rdytst _ => true
  | .durwr => true
  | .durrd _ => true
  | .scale _ _ => true
  | .cmpth _ _ => true
  | .outset _ => true
  | .ldi _ imm => decide (imm ≤ 255)
  | .bz _ off => offsetFits off
  | .bnz _ off => offsetFits off
  | .jmp off => offsetFits off
  | .stop => true

/-- PCT is a rational in [0, 100] (R9, R171). -/
def Ratio.isPercentage (q : Ratio) : Bool := decide (0 < q.den) && decide (q.num ≤ 100 * q.den)

/-- A configuration the model gives a meaning to: the bounds of R171, and PLEN's of R11. The four behavioural
parameters are in their sets by their types, and BASELINE, FULLSCALE and PCT are non-negative by theirs. -/
def Config.wf (c : Config) : Bool :=
  decide (1 ≤ c.width) && decide (c.width ≤ 16) && decide (c.baseline < c.modulus) && decide (c.fullscale < 2 ^ 31) &&
    c.pct.isPercentage && c.prog.wf

end Sys2Proof
end

