-- ==== Sys2Proof/Decode.lean ====
section
/-! DEFINITION. Decoding of command words and of program bytes, total and rejecting by name (30_encoding.md R70-R82), the
encoder written from the same formats, the opcode table of R79 as data, and the pseudo-instructions of R84. -/

namespace Sys2Proof

/-- Why a word or a byte string is no operation: the cases (b) and (c) of R80, and a byte string too short for a word. -/
inductive DecodeError where
  | illegalOpcode
  | reservedField
  | truncated
deriving DecidableEq, Repr

/-- `w[hi:lo]`, read as an unsigned number (R14). -/
def bits (w : CommandWord) (hi lo : Nat) : Nat := w.toNat / 2 ^ lo % 2 ^ (hi + 1 - lo)

/-- The register a 2-bit field selects (R77). -/
def Reg.ofField : Nat → Reg
  | 0 => .r0
  | 1 => .r1
  | 2 => .r2
  | _ => .r3

/-- `sint(sext_8(v))` of an 8-bit field (R14, R78). -/
def signedByte (v : Nat) : Int := if v < 128 then v else v - 256

/-- The 8-bit field that holds an integer: its value modulo 256 (R78). -/
def byteField (z : Int) : Nat := (z % 256).toNat

/-- Format N (R71): [10:0] must be 0. -/
def formatN (w : CommandWord) (i : Instr) : Except DecodeError Instr :=
  if bits w 10 0 = 0 then .ok i else .error .reservedField

/-- Format R1 (R72): rd in [10:9], and [8:0] must be 0. -/
def formatR1 (w : CommandWord) (f : Reg → Instr) : Except DecodeError Instr :=
  if bits w 8 0 = 0 then .ok (f (.ofField (bits w 10 9))) else .error .reservedField

/-- Format R2 (R73): rd in [10:9], rs in [8:7], and [6:0] must be 0. -/
def formatR2 (w : CommandWord) (f : Reg → Reg → Instr) : Except DecodeError Instr :=
  if bits w 6 0 = 0 then .ok (f (.ofField (bits w 10 9)) (.ofField (bits w 8 7))) else .error .reservedField

/-- Format RS (R74): [10:9] must be 0, rs in [8:7], and [6:0] must be 0. -/
def formatRS (w : CommandWord) (f : Reg → Instr) : Except DecodeError Instr :=
  if bits w 10 9 = 0 ∧ bits w 6 0 = 0 then .ok (f (.ofField (bits w 8 7))) else .error .reservedField

/-- Format I (R75): ra in [10:9], [8] must be 0, imm8 in [7:0]. -/
def formatI (w : CommandWord) (f : Reg → Nat → Instr) : Except DecodeError Instr :=
  if bits w 8 8 = 0 then .ok (f (.ofField (bits w 10 9)) (bits w 7 0)) else .error .reservedField

/-- Format J (R76): [10:8] must be 0, imm8 in [7:0]. -/
def formatJ (w : CommandWord) (f : Nat → Instr) : Except DecodeError Instr :=
  if bits w 10 8 = 0 then .ok (f (bits w 7 0)) else .error .reservedField

/-- The major opcode, bits [15:11] (R70). -/
def opcode (w : CommandWord) : Nat := bits w 15 11

/-- The decoder of one command word (R79, R80). -/
def decodeWord (w : CommandWord) : Except DecodeError Instr :=
  match opcode w with
  | 0x01 => formatN w .tstart
  | 0x02 => formatN w .tstop
  | 0x03 => formatN w .tread
  | 0x04 => formatN w .treset
  | 0x05 => formatN w .esample
  | 0x06 => formatN w .edisable
  | 0x07 => formatN w .eenable
  | 0x08 => formatN w .eclrpend
  | 0x09 => formatN w .rdyset
  | 0x0A => formatN w .rdyclr
  | 0x0B => formatR1 w .rdytst
  | 0x0C => formatN w .durwr
  | 0x0D => formatR1 w .durrd
  | 0x0E => formatR2 w .scale
  | 0x0F => formatR2 w .cmpth
  | 0x10 => formatRS w .outset
  | 0x11 => formatI w .ldi
  | 0x12 => formatI w (fun ra v => .bz ra (signedByte v))
  | 0x13 => formatI w (fun ra v => .bnz ra (signedByte v))
  | 0x14 => formatJ w (fun v => .jmp (signedByte v))
  | 0x15 => formatN w .stop
  | _ => .error .illegalOpcode

/-- The command word serialised in two bytes, the low byte first (R54). -/
def wordOfBytes (lo hi : Byte) : CommandWord := hi ++ lo

/-- The decoder of a program image: the first operation and the bytes after it (R54, R82: every word is 16 bits). -/
def decodeBytes : List Byte → Except DecodeError (Instr × List Byte)
  | lo :: hi :: rest =>
    match decodeWord (wordOfBytes lo hi) with
    | .ok i => .ok (i, rest)
    | .error e => .error e
  | _ => .error .truncated

/-- The bytes of a command word in a program image (R54). -/
def bytesOfWord (w : CommandWord) : List Byte := [w.setWidth 8, (w >>> 8).setWidth 8]

/-- A word laid out from its fields: op in [15:11], a field at bit 9, a field at bit 7 and the low bits (R70-R76). -/
def layOut (op at9 at7 low : Nat) : CommandWord := BitVec.ofNat 16 (op * 2048 + at9 * 512 + at7 * 128 + low)

/-- The encoder (R71-R79). An operand that does not fit its field is cut to it. -/
def encode : Instr → CommandWord
  | .tstart => layOut 0x01 0 0 0
  | .tstop => layOut 0x02 0 0 0
  | .tread => layOut 0x03 0 0 0
  | .treset => layOut 0x04 0 0 0
  | .esample => layOut 0x05 0 0 0
  | .edisable => layOut 0x06 0 0 0
  | .eenable => layOut 0x07 0 0 0
  | .eclrpend => layOut 0x08 0 0 0
  | .rdyset => layOut 0x09 0 0 0
  | .rdyclr => layOut 0x0A 0 0 0
  | .rdytst rd => layOut 0x0B rd.number 0 0
  | .durwr => layOut 0x0C 0 0 0
  | .durrd rd => layOut 0x0D rd.number 0 0
  | .scale rd rs => layOut 0x0E rd.number rs.number 0
  | .cmpth rd rs => layOut 0x0F rd.number rs.number 0
  | .outset rs => layOut 0x10 0 rs.number 0
  | .ldi rd imm => layOut 0x11 rd.number 0 (imm % 256)
  | .bz ra off => layOut 0x12 ra.number 0 (byteField off)
  | .bnz ra off => layOut 0x13 ra.number 0 (byteField off)
  | .jmp off => layOut 0x14 0 0 (byteField off)
  | .stop => layOut 0x15 0 0 0

/-- One row of the opcode table: a word is selected by it when `word & mask = match` (R79). -/
structure OpcodeRow where
  mnemonic : String
  mask : CommandWord
  pattern : CommandWord
deriving DecidableEq, Repr

/-- The rows of R79 that have a mnemonic. -/
def opcodeTable : List OpcodeRow :=
  [⟨"TSTART", 0xFFFF, 0x0800⟩, ⟨"TSTOP", 0xFFFF, 0x1000⟩, ⟨"TREAD", 0xFFFF, 0x1800⟩, ⟨"TRESET", 0xFFFF, 0x2000⟩,
   ⟨"ESAMPLE", 0xFFFF, 0x2800⟩, ⟨"EDISABLE", 0xFFFF, 0x3000⟩, ⟨"EENABLE", 0xFFFF, 0x3800⟩,
   ⟨"ECLRPEND", 0xFFFF, 0x4000⟩] ++
  [⟨"RDYSET", 0xFFFF, 0x4800⟩, ⟨"RDYCLR", 0xFFFF, 0x5000⟩, ⟨"RDYTST", 0xF9FF, 0x5800⟩, ⟨"DURWR", 0xFFFF, 0x6000⟩,
   ⟨"DURRD", 0xF9FF, 0x6800⟩, ⟨"SCALE", 0xF87F, 0x7000⟩, ⟨"CMPTH", 0xF87F, 0x7800⟩] ++
  [⟨"OUTSET", 0xFE7F, 0x8000⟩, ⟨"LDI", 0xF900, 0x8800⟩, ⟨"BZ", 0xF900, 0x9000⟩, ⟨"BNZ", 0xF900, 0x9800⟩,
   ⟨"JMP", 0xFF00, 0xA000⟩, ⟨"STOP", 0xFFFF, 0xA800⟩]

/-- The word is selected by the row (R79). -/
def OpcodeRow.selects (r : OpcodeRow) (w : CommandWord) : Bool := w &&& r.mask == r.pattern

/-- The instruction read from `nbits` bits given as a number, bit 0 the least significant bit of the command word. The
word is laid out as its two bytes, the low byte first, and given to the decoder; no operation is longer than 16 bits. -/
def decodeTableWord (nbits w : Nat) : Option Instr :=
  if nbits ≤ 16 then
    match decodeBytes (bytesOfWord (BitVec.ofNat 16 (w % 2 ^ nbits))) with
    | .ok (i, []) => some i
    | _ => none
  else none

/-- The pseudo-instructions (R84). -/
inductive Pseudo where
  | nop
  | arm
  | poll (rd : Reg)
  | halt
  | b (off : Int)
deriving DecidableEq, Repr

/-- What each pseudo-instruction expands to (R84). -/
def Pseudo.expand : Pseudo → List Instr
  | .nop => [.jmp 1]
  | .arm => [.eclrpend, .eenable]
  | .poll rd => [.rdytst rd, .bz rd (-1)]
  | .halt => [.stop]
  | .b off => [.jmp off]

end Sys2Proof
end

