-- ==== Sys2Proof/Machine/State.lean ====
section
/-! DEFINITION. The state of the block, of its foreground and of the model's monitors, as plain data (spec 10_state.md
R20-R38), the reasons a step can stop, and the launch states with the one named reset (70_reset_and_hazards.md R241). -/

namespace Sys2Proof.Machine

/-- The Edge Decoder's two states (R26). -/
inductive DecoderState where
  | idle
  | timing
deriving DecidableEq, Repr

/-- The seven model faults with the information each records (60_exceptions.md R210). -/
inductive FaultReason where
  | illegal (word : CommandWord)
  | context (word : CommandWord)
  | fetch (index : Int)
  | unwrittenReg (reg : Reg)
  | unwrittenDur
  | raceDur (value : Nat)
  | overflow (result : Int)
deriving DecidableEq, Repr

/-- The code of a fault reason (R210). -/
def FaultReason.code : FaultReason → Nat
  | .illegal _ => 1
  | .context _ => 2
  | .fetch _ => 3
  | .unwrittenReg _ => 4
  | .unwrittenDur => 5
  | .raceDur _ => 6
  | .overflow _ => 7

/-- A recorded fault: its reason, and the pc of the foreground step that raised it (R210). -/
structure FaultRecord where
  reason : FaultReason
  pc : Nat
deriving DecidableEq, Repr

/-- The events of the ghost history (R37). `tick none` is `Tick(-)`. -/
inductive Event where
  | edge (level : Bool)
  | tick (count : Option Nat)
  | entry
  | start
  | capture (value : Nat)
  | ignored (dstate : DecoderState) (level : Bool)
  | out (level : Bool)
  | clr
  | read (value : Nat)
  | arm
  | disarm
  | clrPend
  | fault (reason : FaultReason)
deriving DecidableEq, Repr

/-- The steps of the three agents (00_scope.md R7). `edge` carries the value EDGE draws for the pending flag, which the
step uses only while disarmed under EITHER (42_edge_decoder.md R120). -/
inductive Turn where
  | foreground
  | tick
  | edge (draw : Bool)
  | entry
  | body
deriving DecidableEq, Repr

/-- The three agents (R7). -/
inductive Agent where
  | env
  | hnd
  | fg
deriving DecidableEq, Repr

/-- Whose step it is (R7). -/
def Turn.agent : Turn → Agent
  | .foreground => .fg
  | .tick => .env
  | .edge _ => .env
  | .entry => .hnd
  | .body => .hnd

/-- r0-r3, each a 32-bit pattern or unwritten (R34). `none` is the state the spec itself names "unwritten". -/
structure RegFile where
  r0 : Option Word
  r1 : Option Word
  r2 : Option Word
  r3 : Option Word
deriving DecidableEq, Repr

/-- The state (R20). A bit is a Bool, 1 being true; a W-bit value is a number (R14). `dur = none` is "unwritten" (R31).
`cfg` is the configuration (R39), held here because a step takes the state alone; no step writes it. `schedule` and
`turns` are the model's own: the coming steps that are fixed from outside, and how many were left open so far. -/
structure State where
  cfg : Config
  line : Bool
  cnt : Nat
  run : Bool
  en : Bool
  pf : Bool
  dstate : DecoderState
  hact : Bool
  hlevel : Bool
  hcap : Nat
  rdy : Bool
  dur : Option Nat
  out : Bool
  pc : Nat
  regs : RegFile
  fstop : Bool
  fault : Option FaultRecord
  ovr : Bool
  hist : List Event
  schedule : List Turn
  turns : Nat
deriving DecidableEq, Repr

/-- Why the machine stops. -/
inductive Fault where
  /-- Raised by `step` in a state that records a fault: no agent has a step there (R211). Safe: the run ends, as the spec
  says it does. -/
  | faulted (r : FaultRecord)
  /-- Raised by `step` when the schedule names a step that is not enabled. Safe: such a schedule is no execution of the
  spec, and nothing is claimed of it. -/
  | notEnabled (t : Turn)
deriving DecidableEq, Repr

/-- Why a step has no meaning. -/
inductive Refusal where
  /-- Raised by an arm of `exec` whose instruction has no meaning yet (no arm is so). Safe. -/
  | notModelled (mnemonic : String)
  /-- Raised by `step` when the configuration is not well-formed: "the model gives it no meaning and the run does not
  start" (44_actuator.md R171). Safe. -/
  | illFormedConfig
deriving DecidableEq, Repr

/-- No register is written (R34). -/
def RegFile.unwritten : RegFile := ⟨none, none, none, none⟩

/-- The launch state of a configuration and of the six draws (70_reset_and_hazards.md R241). -/
def State.launch (cfg : Config) (line pf out hlevel : Bool) (cnt hcap : Nat) : State where
  cfg := cfg
  line := line
  cnt := cnt
  run := false
  en := true
  pf := pf
  dstate := .idle
  hact := false
  hlevel := hlevel
  hcap := hcap
  rdy := false
  dur := none
  out := out
  pc := 0
  regs := .unwritten
  fstop := false
  fault := none
  ovr := false
  hist := []
  schedule := []
  turns := 0

/-- The reference actuator, the program the reference foreground starts with (44_actuator.md R175, R241). -/
def referenceActuator : Memory :=
  [0x5800, 0x90FF, 0x5000, 0x6A00, 0x7480, 0x7F00, 0x8180, 0x4000, 0x3800, 0xA0F7]

/-- The configuration of the reset state: CFG-A of 95_test_vectors.md with the default behavioural parameters of R10
(DESIGN CHOICE, log entry 2: every parameter is OPEN). -/
def resetConfig : Config where
  width := 8
  baseline := 0
  fullscale := 125
  pct := ⟨10, 1⟩
  edgePolicy := .level
  pendWhileDisarmed := .either
  scaleMode := .signed
  durAtomic := false
  prog := referenceActuator
  prescale := none
  fClk := none
  outActiveHigh := none

/-- One launch state: the machine right after reset. The six draws are zero (DESIGN CHOICE, log entry 1); every other
field is R241's. -/
def State.reset : State := State.launch resetConfig false false false false 0 0

end Sys2Proof.Machine
end

