-- ==== Sys2Proof/Machine/Ops.lean ====
section
/-! DEFINITION. The named operations over the state: registers, the program memory, the history, the pc, raising a fault
(60_exceptions.md R211), and the entry to the edge handler and the return from it (R223, R225). -/

namespace Sys2Proof.Machine

/-- What a meaning answers. -/
abbrev Result := Host.Outcome State Fault Refusal

/-- The content of a register, `none` while it is unwritten (R34). -/
def RegFile.read (f : RegFile) : Reg → Option Word
  | .r0 => f.r0
  | .r1 => f.r1
  | .r2 => f.r2
  | .r3 => f.r3

/-- The register file with one register written (R34). -/
def RegFile.write (f : RegFile) (r : Reg) (v : Word) : RegFile :=
  match r with
  | .r0 => ⟨some v, f.r1, f.r2, f.r3⟩
  | .r1 => ⟨f.r0, some v, f.r2, f.r3⟩
  | .r2 => ⟨f.r0, f.r1, some v, f.r3⟩
  | .r3 => ⟨f.r0, f.r1, f.r2, some v⟩

/-- `x[r] <- v` (00_scope.md R15). -/
def State.writeReg (s : State) (r : Reg) (v : Word) : State := { s with regs := s.regs.write r v }

/-- `emit e`: append an event to the history (R15, R37). -/
def State.emit (s : State) (e : Event) : State := { s with hist := s.hist ++ [e] }

/-- `pc <- t` (R15). -/
def State.setPc (s : State) (t : Nat) : State := { s with pc := t }

/-- The sequential advance of the pc (45_sequencer.md R192). -/
def State.advance (s : State) : State := { s with pc := s.pc + 1 }

/-- `raise F(info)`: record the fault with the pc of the raising step, emit it, and change nothing else (R211). -/
def State.raise (s : State) (r : FaultReason) : State :=
  { s with fault := some ⟨r, s.pc⟩, hist := s.hist ++ [.fault r] }

/-- Delivery of a notification: the pending flag is cleared and the handler becomes active; nothing is saved and no
address is read (42_edge_decoder.md R130, 60_exceptions.md R223). -/
def State.enterHandler (s : State) : State := { s with pf := false, hact := true, hist := s.hist ++ [.entry] }

/-- The return from the handler: nothing is restored and nothing is re-enabled (R225). -/
def State.leaveHandler (s : State) : State := { s with hact := false }

/-- PROG[i], if 0 ≤ i < PLEN (R11, 45_sequencer.md R190). -/
def fetchWord (m : Memory) (i : Nat) : Option CommandWord := m[i]?

/-- A program memory that holds `w` at index i: the loader's operation, which no step performs (R51, R242). An index past
the end lengthens the memory with zero words. -/
def loadWord (m : Memory) (i : Nat) (w : CommandWord) : Memory :=
  if i < m.length then m.set i w else m ++ List.replicate (i - m.length) 0 ++ [w]

/-- An operation that raises a fault (R211). -/
def trap (r : FaultReason) (s : State) : Result := .next (s.raise r)

/-- The end of a foreground operation that does not branch (R192). -/
def complete (s : State) : Result := .next s.advance

/-- A handler-only operation: its effect as a micro-operation of BODY, F_CONTEXT when the foreground fetched it
(30_encoding.md R79, 60_exceptions.md R213). -/
def handlerOnly (i : Instr) (effect : State → State) (s : State) : Result :=
  if s.hact then .next (effect s) else trap (.context (encode i)) s

/-- A taken branch to index t (45_sequencer.md R195, R197): F_FETCH(t) outside [0, PLEN). -/
def branchTo (t : Int) (s : State) : Result :=
  if t < 0 ∨ (s.cfg.plen : Int) ≤ t then trap (.fetch t) s else .next (s.setPc t.toNat)

end Sys2Proof.Machine
end

