-- ==== Sys2Proof/Machine/Operands.lean ====
section
/-! DEFINITION. The operand forms: a source register with its F_UNWRITTEN_REG check (60_exceptions.md R212), the register
images of bits and of W-bit values (00_scope.md R14), immediates and branch targets (30_encoding.md R78). -/

namespace Sys2Proof.Machine

/-- Read a source register, before anything is written (45_sequencer.md R194); F_UNWRITTEN_REG if it holds no value. -/
def withSource (r : Reg) (s : State) (k : Word → Result) : Result :=
  match s.regs.read r with
  | none => trap (.unwrittenReg r) s
  | some v => k v

/-- `zext_32` of a bit (R14). -/
def wordOfBit (b : Bool) : Word := if b then 1 else 0

/-- `zext_32` of an unsigned value narrower than 32 bits (R14). -/
def wordOfNat (n : Nat) : Word := BitVec.ofNat 32 n

/-- The two's complement pattern of an integer, `z mod 2^32` (R14, R172). -/
def wordOfInt (z : Int) : Word := BitVec.ofInt 32 z

/-- `sint(v)` (R14). -/
def sint (v : Word) : Int := v.toInt

/-- `uint(v)` (R14). -/
def uint (v : Word) : Nat := v.toNat

/-- The target of a branch: the offset counts in words, relative to the index of the branch itself (R78). -/
def branchTarget (s : State) (off : Int) : Int := (s.pc : Int) + off

end Sys2Proof.Machine
end

