-- ==== Sys2Proof/Machine/Flags.lean ====
section
/-! DEFINITION. The single-bit state elements as operations write them (the rules' "Flags written" lines), and the
conditions computed from a register: no operation keeps a condition flag. -/

namespace Sys2Proof.Machine

/-- `run <- b` (10_state.md R23). -/
def State.setRun (s : State) (b : Bool) : State := { s with run := b }

/-- `en <- b` (R24). -/
def State.setEn (s : State) (b : Bool) : State := { s with en := b }

/-- `pf <- b` (R25). -/
def State.setPf (s : State) (b : Bool) : State := { s with pf := b }

/-- `rdy <- b` (R30). -/
def State.setRdy (s : State) (b : Bool) : State := { s with rdy := b }

/-- `fstop <- b` (R35). -/
def State.setFstop (s : State) (b : Bool) : State := { s with fstop := b }

/-- `out <- b` (R32). -/
def State.setOut (s : State) (b : Bool) : State := { s with out := b }

/-- The condition of BNZ and of OUTSET, `uint(v) != 0` (45_sequencer.md R196, 44_actuator.md R174). -/
def isNonzero (v : Word) : Bool := decide (uint v ≠ 0)

/-- The comparison of CMPTH, `sint(v) >= TH` (R173). -/
def reachesThreshold (c : Config) (v : Word) : Bool := decide ((c.threshold : Int) ≤ sint v)

/-- The exact difference SCALE computes under SIGNED (R172). -/
def signedDifference (c : Config) (v : Word) : Int := sint v - (c.baseline : Int)

/-- The difference does not fit 32-bit two's complement: F_OVERFLOW (R172, 60_exceptions.md R218). -/
def overflows (z : Int) : Bool := decide (z < -(2 ^ 31)) || decide ((2 ^ 31 : Int) ≤ z)

/-- The difference SCALE computes under WRAP, modulo 2^W (R172). -/
def wrappedDifference (c : Config) (v : Word) : Int := ((uint v : Int) - (c.baseline : Int)) % (c.modulus : Int)

end Sys2Proof.Machine
end

