-- ==== Sys2Proof/Machine/Actuator.lean ====
section
/-! DEFINITION. The threshold comparator: SCALE, CMPTH and OUTSET (44_actuator.md R172-R174). -/

namespace Sys2Proof.Machine

/-- SCALE rd, rs (R172): `duration - baseline_ticks`, exact with F_OVERFLOW under SIGNED, modulo 2^W under WRAP. -/
def execScale (rd rs : Reg) (s : State) : Result :=
  withSource rs s fun v =>
    match s.cfg.scaleMode with
    | .signed =>
      if overflows (signedDifference s.cfg v) then trap (.overflow (signedDifference s.cfg v)) s
      else complete (s.writeReg rd (wordOfInt (signedDifference s.cfg v)))
    | .wrap => complete (s.writeReg rd (wordOfInt (wrappedDifference s.cfg v)))

/-- CMPTH rd, rs (R173): 1 if the scaled value reaches the threshold, else 0. -/
def execCmpth (rd rs : Reg) (s : State) : Result :=
  withSource rs s fun v => complete (s.writeReg rd (wordOfBit (reachesThreshold s.cfg v)))

/-- OUTSET rs (R174): any non-zero value drives the output ON. -/
def execOutset (rs : Reg) (s : State) : Result :=
  withSource rs s fun v => complete ((s.setOut (isNonzero v)).emit (.out (isNonzero v)))

end Sys2Proof.Machine
end

