-- ==== Sys2Proof/Machine/EdgeSource.lean ====
section
/-! DEFINITION. The edge source: the environment's EDGE and the operations ESAMPLE, EDISABLE, EENABLE and ECLRPEND
(42_edge_decoder.md R120-R124). -/

namespace Sys2Proof.Machine

/-- The pending flag after an edge (R120): set while armed; while disarmed as PEND_WHILE_DISARMED says, with `draw` the
value drawn under EITHER. -/
def pendingAfterEdge (s : State) (draw : Bool) : Bool :=
  if s.en then true
  else
    match s.cfg.pendWhileDisarmed with
    | .latch => true
    | .noLatch => s.pf
    | .either => s.pf || draw

/-- EDGE (R120): the input line changes level. -/
def edge (draw : Bool) (s : State) : State :=
  { s with line := !s.line, pf := pendingAfterEdge s draw, hist := s.hist ++ [.edge (!s.line)] }

/-- The effect of ESAMPLE (R121). -/
def sampleLine (s : State) : State := { s with hlevel := s.line }

/-- The effect of EDISABLE (R122). -/
def disarm (s : State) : State := (s.setEn false).emit .disarm

/-- ESAMPLE (R121). -/
def execEsample (s : State) : Result := handlerOnly .esample sampleLine s

/-- EDISABLE (R122), the one operation of both contexts: the pc is the foreground's, so only there does it advance. -/
def execEdisable (s : State) : Result := if s.hact then .next (disarm s) else complete (disarm s)

/-- EENABLE (R123). -/
def execEenable (s : State) : Result := complete ((s.setEn true).emit .arm)

/-- ECLRPEND (R124). -/
def execEclrpend (s : State) : Result := complete ((s.setPf false).emit .clrPend)

end Sys2Proof.Machine
end

