-- ==== Sys2Proof/Machine/Handoff.lean ====
section
/-! DEFINITION. The ready flag and the duration cell: RDYSET, RDYCLR, RDYTST, DURWR and DURRD (43_handoff.md R150-R154).
Every read reads the state element itself (R155). -/

namespace Sys2Proof.Machine

/-- The effect of RDYSET (R150): the ghost `ovr` records a publish over a set flag. -/
def publish (s : State) : State := { s with ovr := s.ovr || s.rdy, rdy := true }

/-- The effect of DURWR (R153). -/
def writeDuration (s : State) : State := { s with dur := some s.hcap }

/-- RDYSET (R150). -/
def execRdyset (s : State) : Result := handlerOnly .rdyset publish s

/-- RDYCLR (R151). -/
def execRdyclr (s : State) : Result := complete ((s.setRdy false).emit .clr)

/-- RDYTST rd (R152). -/
def execRdytst (rd : Reg) (s : State) : Result := complete (s.writeReg rd (wordOfBit s.rdy))

/-- DURWR (R153). -/
def execDurwr (s : State) : Result := handlerOnly .durwr writeDuration s

/-- DURRD rd (R154): F_UNWRITTEN_DUR first, then F_RACE_DUR for a read that is not declared atomic while armed. -/
def execDurrd (rd : Reg) (s : State) : Result :=
  match s.dur with
  | none => trap .unwrittenDur s
  | some d =>
    if s.en && !s.cfg.durAtomic then trap (.raceDur d) s
    else complete ((s.writeReg rd (wordOfNat d)).emit (.read d))

end Sys2Proof.Machine
end

