-- ==== Sys2Proof/Machine/Sequencer.lean ====
section
/-! DEFINITION. The foreground sequencer's own operations: LDI, BZ, BNZ, JMP and STOP (45_sequencer.md R193-R198). -/

namespace Sys2Proof.Machine

/-- LDI rd, imm8 (R193). -/
def execLdi (rd : Reg) (imm : Nat) (s : State) : Result := complete (s.writeReg rd (wordOfNat imm))

/-- BZ ra, off8 (R195). -/
def execBz (ra : Reg) (off : Int) (s : State) : Result :=
  withSource ra s fun v => if isNonzero v then complete s else branchTo (branchTarget s off) s

/-- BNZ ra, off8 (R196). -/
def execBnz (ra : Reg) (off : Int) (s : State) : Result :=
  withSource ra s fun v => if isNonzero v then branchTo (branchTarget s off) s else complete s

/-- JMP off8 (R197). -/
def execJmp (off : Int) (s : State) : Result := branchTo (branchTarget s off) s

/-- STOP (R198): the pc stays where it is. -/
def execStop (s : State) : Result := .next (s.setFstop true)

end Sys2Proof.Machine
end

