-- ==== Sys2Proof/Machine/Timer.lean ====
section
/-! DEFINITION. The Pulse Timer: the environment's TICK and the operations TSTART, TSTOP, TREAD and TRESET
(41_pulse_timer.md R100-R104). -/

namespace Sys2Proof.Machine

/-- TICK (R100): the counter increments modulo 2^W while it runs. -/
def tick (s : State) : State :=
  if s.run then
    { s with cnt := (s.cnt + 1) % s.cfg.modulus, hist := s.hist ++ [.tick (some ((s.cnt + 1) % s.cfg.modulus))] }
  else s.emit (.tick none)

/-- The effect of TSTART (R101). -/
def startTimer (s : State) : State := { s with cnt := 0, run := true }

/-- The effect of TSTOP (R102). -/
def stopTimer (s : State) : State := s.setRun false

/-- The effect of TREAD (R103). -/
def readTimer (s : State) : State := { s with hcap := s.cnt }

/-- The effect of TRESET (R104). -/
def resetTimer (s : State) : State := { s with cnt := 0 }

/-- TSTART (R101). -/
def execTstart (s : State) : Result := handlerOnly .tstart startTimer s

/-- TSTOP (R102). -/
def execTstop (s : State) : Result := handlerOnly .tstop stopTimer s

/-- TREAD (R103). -/
def execTread (s : State) : Result := handlerOnly .tread readTimer s

/-- TRESET (R104). -/
def execTreset (s : State) : Result := handlerOnly .treset resetTimer s

end Sys2Proof.Machine
end

