-- ==== Sys2Proof/Machine/Dispatch.lean ====
section
/-! DEFINITION. The meaning of an operation in the context the state is in: the handler's while `hact` is set, the
foreground's otherwise. -/

namespace Sys2Proof.Machine

def exec (i : Instr) (s : State) : Host.Outcome State Fault Refusal :=
  match i with
  | .tstart => Sys2Proof.Machine.execTstart s
  | .tstop => Sys2Proof.Machine.execTstop s
  | .tread => Sys2Proof.Machine.execTread s
  | .treset => Sys2Proof.Machine.execTreset s
  | .esample => Sys2Proof.Machine.execEsample s
  | .edisable => Sys2Proof.Machine.execEdisable s
  | .eenable => Sys2Proof.Machine.execEenable s
  | .eclrpend => Sys2Proof.Machine.execEclrpend s
  | .rdyset => Sys2Proof.Machine.execRdyset s
  | .rdyclr => Sys2Proof.Machine.execRdyclr s
  | .rdytst rd => Sys2Proof.Machine.execRdytst rd s
  | .durwr => Sys2Proof.Machine.execDurwr s
  | .durrd rd => Sys2Proof.Machine.execDurrd rd s
  | .scale rd rs => Sys2Proof.Machine.execScale rd rs s
  | .cmpth rd rs => Sys2Proof.Machine.execCmpth rd rs s
  | .outset rs => Sys2Proof.Machine.execOutset rs s
  | .ldi rd imm => Sys2Proof.Machine.execLdi rd imm s
  | .bz ra off => Sys2Proof.Machine.execBz ra off s
  | .bnz ra off => Sys2Proof.Machine.execBnz ra off s
  | .jmp off => Sys2Proof.Machine.execJmp off s
  | .stop => Sys2Proof.Machine.execStop s

end Sys2Proof.Machine
end

