-- ==== Sys2Proof/Machine/Handler.lean ====
section
/-! DEFINITION. The edge handler: ENTRY, and BODY with its dispatch and its three actions (42_edge_decoder.md
R130-R135). -/

namespace Sys2Proof.Machine

/-- What BODY does with a notification (R132). -/
inductive Action where
  | start
  | capture
  | ignore
deriving DecidableEq, Repr

/-- The transition function of the Edge Decoder: the eight rows of R132. -/
def dispatch : EdgePolicy → DecoderState → Bool → Action
  | .level, .idle, true => .start
  | .level, .timing, true => .start
  | .level, .idle, false => .capture
  | .level, .timing, false => .capture
  | .strict, .idle, true => .start
  | .strict, .timing, true => .ignore
  | .strict, .idle, false => .ignore
  | .strict, .timing, false => .capture

/-- `dstate <- d` (10_state.md R26). -/
def State.setDstate (s : State) (d : DecoderState) : State := { s with dstate := d }

/-- The START action and its event (R131, R133). -/
def startAction (s : State) : State := ((startTimer s).setDstate .timing).emit .start

/-- The micro-operations of CAPTURE in their order: TSTOP, TREAD, DURWR, RDYSET, EDISABLE (R134). -/
def captureOps (s : State) : State := disarm (publish (writeDuration (readTimer (stopTimer s))))

/-- The CAPTURE action and its event (R131, R134). -/
def captureAction (s : State) : State := ((captureOps s).setDstate .idle).emit (.capture (captureOps s).hcap)

/-- The IGNORE action (R135). -/
def ignoreAction (s : State) : State := s.emit (.ignored s.dstate s.hlevel)

/-- The action a sampled state takes (R131). -/
def act : Action → State → State
  | .start, s => startAction s
  | .capture, s => captureAction s
  | .ignore, s => ignoreAction s

/-- ENTRY (R130). -/
def entry (s : State) : State := s.enterHandler

/-- BODY (R131): sample, dispatch, act, return, in one step. -/
def body (s : State) : State :=
  (act (dispatch s.cfg.edgePolicy s.dstate (sampleLine s).hlevel) (sampleLine s)).leaveHandler

end Sys2Proof.Machine
end

