-- ==== Sys2Proof/Machine/Agents.lean ====
section
/-! DEFINITION. The three agents: when each has a step, what its step does, and which step is taken next (00_scope.md R7,
R16; 45_sequencer.md R190, R191; 60_exceptions.md R221-R226). -/

namespace Sys2Proof.Machine

/-- When a step is enabled: FG's by R190, ENV's by R100 and R120, HND's by R130 and R131. -/
def enabled (s : State) : Turn → Bool
  | .foreground => s.fault.isNone && !s.hact && !s.fstop
  | .tick => s.fault.isNone
  | .edge _ => s.fault.isNone
  | .entry => s.fault.isNone && !s.hact && s.en && s.pf
  | .body => s.fault.isNone && s.hact

/-- The foreground's step: fetch with F_FETCH, decode with F_ILLEGAL, then the operation, whose first check is its
context (R190, R191, R219). -/
def foregroundStep (s : State) : Result :=
  match fetchWord s.cfg.prog s.pc with
  | none => trap (.fetch s.pc) s
  | some w =>
    match decodeWord w with
    | .error _ => trap (.illegal w) s
    | .ok i => exec i s

/-- The step of whichever agent has the turn (R7). -/
def perform (t : Turn) (s : State) : Result :=
  match t with
  | .foreground => foregroundStep s
  | .tick => .next (tick s)
  | .edge draw => .next (edge draw s)
  | .entry => .next (entry s)
  | .body => .next (body s)

/-- Every step of every agent, EDGE with each value it can draw. -/
def allTurns : List Turn := [.foreground, .tick, .edge false, .edge true, .entry, .body]

/-- The steps enabled in a state (R226: any one of them may be taken). -/
def enabledTurns (s : State) : List Turn := allTurns.filter (enabled s)

/-- The step to take: what the schedule says; where it says nothing, one of the enabled steps, picked by the free value
`Config.freeTurn` (R222, R226). -/
def nextTurn (s : State) : Turn :=
  match s.schedule with
  | t :: _ => t
  | [] => (enabledTurns s).getD (Config.freeTurn s.turns % (enabledTurns s).length) .tick

/-- The state with that choice used up. -/
def takeTurn (s : State) : State :=
  match s.schedule with
  | _ :: rest => { s with schedule := rest }
  | [] => { s with turns := s.turns + 1 }

end Sys2Proof.Machine
end

