-- ==== Sys2Proof/Machine/Step.lean ====
section
/-! DEFINITION. One step of the machine: one whole step of one agent (00_scope.md R16, R19; 44_actuator.md R171;
60_exceptions.md R211), and where the host places a command word. -/

namespace Sys2Proof.Machine

/-- One step. An ill-formed configuration has no meaning (R171); after a fault no agent has a step (R211); a schedule that
names a step that is not enabled is no execution. -/
def step (s : State) : Host.Outcome State Fault Refusal :=
  if s.cfg.wf then
    match s.fault with
    | some r => .fault (.faulted r)
    | none => if enabled s (nextTurn s) then perform (nextTurn s) (takeTurn s) else .fault (.notEnabled (nextTurn s))
  else .refused .illFormedConfig

/-- The state with the command word `w` at the pc and the foreground's step next: what loads a program (R242) and chooses
the agent. -/
def State.withFetchWord (s : State) (nbits w : Nat) : State :=
  { s with
    cfg := { s.cfg with prog := loadWord s.cfg.prog s.pc (BitVec.ofNat 16 (w % 2 ^ nbits)) }
    schedule := .foreground :: s.schedule }

end Sys2Proof.Machine
end

