-- ==== Sys2Proof/Safety.lean ====
section
/-! DEFINITION. What claims are stated in terms of: launch and end of a run, the invariant of every step, the observer that
reads the ghost history, runs and fair executions, and the parts of the state that no rule or no agent reads. -/

namespace Sys2Proof.Machine

/-- A launch state (70_reset_and_hazards.md R241): every fixed field at its launch value, every draw in its range, and a
well-formed configuration. The schedule and its counter are the model's own and free. -/
structure State.IsLaunch (s : State) : Prop where
  cfg_wf : s.cfg.wf = true
  dstate : s.dstate = .idle
  en : s.en = true
  rdy : s.rdy = false
  hact : s.hact = false
  run : s.run = false
  fstop : s.fstop = false
  pc : s.pc = 0
  dur : s.dur = none
  regs : s.regs = .unwritten
  fault : s.fault = none
  ovr : s.ovr = false
  hist : s.hist = []
  cnt : s.cnt < s.cfg.modulus
  hcap : s.hcap < s.cfg.modulus

/-- The end of a run (R243): the foreground has stopped without a fault, and no handler run is in progress or
deliverable. -/
def State.ended (s : State) : Bool := s.fault.isNone && s.fstop && !s.hact && !(s.en && s.pf)

/-- What every step keeps, in the terms of 10_state.md: the W-bit elements are below 2^W (R14, R22, R29, R31), the pc
never passes PLEN (R33, R192), the counter runs exactly in Timing (R23, R26, R133, R134), the handler runs only while armed
(R130), a set ready flag has a duration behind it (R156), and a fault is recorded only outside the handler (R210). -/
structure State.Inv (s : State) : Prop where
  cfg_wf : s.cfg.wf = true
  cnt : s.cnt < s.cfg.modulus
  hcap : s.hcap < s.cfg.modulus
  dur : ∀ d, s.dur = some d → d < s.cfg.modulus
  pc : s.pc ≤ s.cfg.plen
  run : s.run = true ↔ s.dstate = .timing
  hact : s.hact = true → s.en = true
  rdy : s.rdy = true → s.dur ≠ none
  fault : s.fault ≠ none → s.hact = false

/-- What the history alone tells of the block (R37): the handoff, the decoder and the fault, as an observer of the events
keeps them. -/
structure Monitor where
  rdy : Bool
  ovr : Bool
  dur : Option Nat
  en : Bool
  dstate : DecoderState
  run : Bool
  hact : Bool
  reason : Option FaultReason
deriving DecidableEq, Repr

/-- The observer at launch (R241). -/
def Monitor.launch : Monitor := ⟨false, false, none, true, .idle, false, false, none⟩

/-- The observer after one event: a Capture publishes (over an unconsumed measurement, if the flag was set), a Clr
consumes, Arm and Disarm gate, Entry and the three outcomes of BODY bracket the handler run. -/
def Monitor.see (m : Monitor) : Event → Monitor
  | .edge _ => m
  | .tick _ => m
  | .entry => { m with hact := true }
  | .start => { m with dstate := .timing, run := true, hact := false }
  | .capture v => { m with ovr := m.ovr || m.rdy, rdy := true, dur := some v, dstate := .idle, run := false, hact := false }
  | .ignored _ _ => { m with hact := false }
  | .out _ => m
  | .clr => { m with rdy := false }
  | .read _ => m
  | .arm => { m with en := true }
  | .disarm => { m with en := false }
  | .clrPend => m
  | .fault r => { m with reason := some r }

/-- The observer after a whole history. -/
def Monitor.replay (h : List Event) : Monitor := h.foldl Monitor.see Monitor.launch

/-- What the observer would have to hold to agree with the state. -/
def State.monitor (s : State) : Monitor :=
  ⟨s.rdy, s.ovr, s.dur, s.en, s.dstate, s.run, s.hact, s.fault.map FaultRecord.reason⟩

/-- The history accounts for the state: replaying its events gives the published state, `ovr` included (R37, R38). -/
def State.HistoryAgrees (s : State) : Prop := Monitor.replay s.hist = s.monitor

/-- The operation the foreground would execute at the pc, if the word there decodes. -/
def State.operation (s : State) : Option Instr :=
  match fetchWord s.cfg.prog s.pc with
  | none => none
  | some w => match decodeWord w with | .ok i => some i | .error _ => none

/-- A run of n steps that does not stop. -/
def runFor : Nat → State → Result
  | 0, s => .next s
  | n + 1, s => match step s with | .next t => runFor n t | .fault r => .fault r | .refused r => .refused r

/-- n TICK steps (41_pulse_timer.md R100). -/
def ticks : Nat → State → State
  | 0, s => s
  | n + 1, s => ticks n (tick s)

/-- How many of the steps are TICKs. -/
def tickCount (l : List Turn) : Nat := l.countP fun t => t == .tick

/-- No step of the list is an EDGE. -/
def noEdge (l : List Turn) : Bool := l.all fun t => match t with | .edge _ => false | _ => true

/-- An infinite execution: at each point some agent takes a step that is enabled (R7, R226). The turns are those taken;
the model's own schedule plays no part in it. -/
def Execution (σ : Nat → State) (τ : Nat → Turn) : Prop :=
  ∀ n, (σ n).cfg.wf = true ∧ enabled (σ n) (τ n) = true ∧ perform (τ n) (σ n) = .next (σ (n + 1))

/-- Some step of the agent is enabled. -/
def agentEnabled (a : Agent) (s : State) : Bool := (enabledTurns s).any fun t => t.agent == a

/-- Weak fairness for an agent (60_exceptions.md R227): if from some point on it always has a step, it takes one. -/
def FairTo (a : Agent) (σ : Nat → State) (τ : Nat → Turn) : Prop :=
  ∀ n, (∀ m, n ≤ m → agentEnabled a (σ m) = true) → ∃ m, n ≤ m ∧ (τ m).agent = a

/-- The executions the spec admits: fair to HND and FG, with no obligation on ENV (R227). -/
def FairExecution (σ : Nat → State) (τ : Nat → Turn) : Prop := Execution σ τ ∧ FairTo .hnd σ τ ∧ FairTo .fg σ τ

/-- An answer with its next state changed. -/
def mapNext (f : State → State) : Result → Result
  | .next s => .next (f s)
  | .fault r => .fault r
  | .refused r => .refused r

/-- The state with other monitors: the ghosts no rule reads (R37, R38). -/
def State.withGhosts (s : State) (h : List Event) (o : Bool) : State := { s with hist := h, ovr := o }

/-- The state with other informational parameters (R12). -/
def State.withInformation (s : State) (prescale fClk : Option Nat) (activeHigh : Option Bool) : State :=
  { s with cfg := { s.cfg with prescale := prescale, fClk := fClk, outActiveHigh := activeHigh } }

/-- The state with another foreground (the elements of R42 that are FG's alone). -/
def State.withForeground (s : State) (pc : Nat) (regs : RegFile) (fstop out : Bool) : State :=
  { s with pc := pc, regs := regs, fstop := fstop, out := out }

/-- The state with another measurement in progress (elements of R42 that only the handler touches, and the line). -/
def State.withMeasurement (s : State) (line : Bool) (cnt : Nat) (run : Bool) (d : DecoderState) (hlevel : Bool)
    (hcap : Nat) : State :=
  { s with line := line, cnt := cnt, run := run, dstate := d, hlevel := hlevel, hcap := hcap }

/-- The foreground keeps the protocol at this step: it re-arms only when the flag is clear, that is, after it has
consumed the last measurement (70_reset_and_hazards.md R252; 43_handoff.md R158's argument). -/
def State.rearmsConsumed (s : State) : Prop :=
  nextTurn s = .foreground → s.operation = some .eenable → s.rdy = false

/-- Answers in sequence: the second operation runs in the state the first leaves. -/
def andThen (a : Result) (k : State → Result) : Result :=
  match a with
  | .next s => k s
  | .fault r => .fault r
  | .refused r => .refused r

/-- Operations in sequence, as a listing gives them (42_edge_decoder.md R131). -/
def execAll : List Instr → State → Result
  | [], s => .next s
  | i :: is, s => andThen (exec i s) (execAll is)

/-- Steps 2 to 5 of the Threshold Actuator on chosen registers: read the duration, scale it, compare it, drive the output
(44_actuator.md R175). -/
def decisionOps (a b c : Reg) : List Instr := [.durrd a, .scale b a, .cmpth c b, .outset c]

/-- An operation's own checks, in the order its pseudocode lists them (60_exceptions.md R219, point 5). -/
def State.ownFault (s : State) : Instr → Option FaultReason
  | .durrd _ =>
    match s.dur with
    | none => some .unwrittenDur
    | some d => if s.en = true ∧ s.cfg.durAtomic = false then some (.raceDur d) else none
  | .scale _ rs =>
    match s.regs.read rs with
    | some v =>
      if s.cfg.scaleMode = .signed ∧ (v.toInt - s.cfg.baseline < -(2 ^ 31) ∨ 2 ^ 31 ≤ v.toInt - s.cfg.baseline) then
        some (.overflow (v.toInt - s.cfg.baseline))
      else none
    | none => none
  | .bz ra off =>
    if s.regs.read ra = some 0 ∧ (s.pc + off < 0 ∨ s.cfg.plen ≤ s.pc + off) then some (.fetch (s.pc + off)) else none
  | .bnz ra off =>
    if s.regs.read ra ≠ some 0 ∧ (s.pc + off < 0 ∨ s.cfg.plen ≤ s.pc + off) then some (.fetch (s.pc + off)) else none
  | .jmp off => if s.pc + off < 0 ∨ s.cfg.plen ≤ s.pc + off then some (.fetch (s.pc + off)) else none
  | .tstart | .tstop | .tread | .treset | .esample | .edisable | .eenable | .eclrpend | .rdyset | .rdyclr | .rdytst _
  | .durwr | .cmpth _ _ | .outset _ | .ldi _ _ | .stop => none

/-- The fault a foreground step reports: the first that applies, in the order of R219. -/
def State.firstFault (s : State) : Option FaultReason :=
  if s.cfg.plen ≤ s.pc then some (.fetch s.pc)
  else
    match fetchWord s.cfg.prog s.pc with
    | none => none
    | some w =>
      match decodeWord w with
      | .error _ => some (.illegal w)
      | .ok i =>
        if i.context = .handler then some (.context w)
        else
          match i.sources.find? fun r => (s.regs.read r).isNone with
          | some r => some (.unwrittenReg r)
          | none => s.ownFault i

end Sys2Proof.Machine
end

