-- ==== Sys2Proof/Certificates/Slice0/Obligations.lean ====
section
/-! DEFINITION. The statements for the provers, each formalising rules of spec/ or derived from them. A docstring names the
rules; where a clause is the model's own choice it names the log entry. -/

open Sys2Proof Sys2Proof.Machine

/-! ### Encoding -/

/-- R71-R79: no operand is lost by the encoding; every well-formed operation is what its word decodes to. -/
def Obligations.EncodedOperationsDecodeToThemselves : Prop :=
  ∀ i : Instr, i.wf = true → decodeWord (encode i) = .ok i

/-- R80: each word has one meaning; a word that decodes is the encoding of the well-formed operation it decodes to. -/
def Obligations.DecodedWordsEncodeBack : Prop :=
  ∀ (w : CommandWord) (i : Instr), decodeWord w = .ok i → i.wf = true ∧ encode i = w

/-- R79: a word decodes to an operation of a row's mnemonic exactly when the row selects it, `word & mask = match`. -/
def Obligations.WordsDecodeByTheirRow : Prop :=
  ∀ r ∈ opcodeTable, ∀ w : CommandWord,
    (∃ i, decodeWord w = .ok i ∧ i.mnemonic = r.mnemonic) ↔ w &&& r.mask = r.pattern

/-- R80: every word is exactly one of three things, and a foreground fetch of the last two raises F_ILLEGAL with the
word. -/
def Obligations.EveryWordIsOneOfThreeThings : Prop :=
  ∀ w : CommandWord,
    ((∃ i, decodeWord w = .ok i) ↔ ∃ r ∈ opcodeTable, r.selects w = true) ∧
    (∀ r ∈ opcodeTable, ∀ r' ∈ opcodeTable, r.selects w = true → r'.selects w = true → r = r') ∧
    (∀ i, decodeWord w = .ok i → ∀ r ∈ opcodeTable, r.selects w = true → i.mnemonic = r.mnemonic) ∧
    (decodeWord w = .error .illegalOpcode ↔ bits w 15 11 = 0 ∨ 0x16 ≤ bits w 15 11) ∧
    (decodeWord w = .error .reservedField ↔
      (1 ≤ bits w 15 11 ∧ bits w 15 11 ≤ 0x15) ∧ ∀ r ∈ opcodeTable, r.selects w = false) ∧
    decodeWord w ≠ .error .truncated ∧
    (∀ s : State, s.cfg.prog[s.pc]? = some w → (∀ r ∈ opcodeTable, r.selects w = false) →
      foregroundStep s =
        .next { s with fault := some ⟨.illegal w, s.pc⟩, hist := s.hist ++ [.fault (.illegal w)] })

/-- R175, R84, 95_test_vectors.md V-DE: words written out by the spec decode to the operations it says they are. -/
def Obligations.WrittenOutWordsDecode : Prop :=
  decodeWord 0x5800 = .ok (.rdytst .r0) ∧ decodeWord 0x90FF = .ok (.bz .r0 (-1)) ∧ decodeWord 0x5000 = .ok .rdyclr ∧
  decodeWord 0x6A00 = .ok (.durrd .r1) ∧ decodeWord 0x7480 = .ok (.scale .r2 .r1) ∧
  decodeWord 0x7F00 = .ok (.cmpth .r3 .r2) ∧ decodeWord 0x8180 = .ok (.outset .r3) ∧
  decodeWord 0x4000 = .ok .eclrpend ∧ decodeWord 0x3800 = .ok .eenable ∧ decodeWord 0xA0F7 = .ok (.jmp (-9)) ∧
  decodeWord 0x88C8 = .ok (.ldi .r0 200) ∧ decodeWord 0x9C03 = .ok (.bnz .r2 3) ∧ decodeWord 0xA800 = .ok .stop ∧
  decodeWord 0x0801 = .error .reservedField ∧ decodeWord 0x8200 = .error .reservedField ∧
  decodeWord 0xB000 = .error .illegalOpcode ∧ decodeWord 0x0000 = .error .illegalOpcode

/-- R54: a program image holds each word low byte first, and every word is two bytes. -/
def Obligations.ProgramImagesAreLittleEndian : Prop :=
  (∀ lo hi : Byte, (wordOfBytes lo hi).toNat = lo.toNat + 256 * hi.toNat) ∧
  (∀ w : CommandWord, ∃ lo hi : Byte, bytesOfWord w = [lo, hi] ∧ wordOfBytes lo hi = w) ∧
  (∀ (w : CommandWord) (rest : List Byte) (i : Instr), decodeWord w = .ok i →
    decodeBytes (bytesOfWord w ++ rest) = .ok (i, rest)) ∧
  (∀ (w : CommandWord) (rest : List Byte) (e : DecodeError), decodeWord w = .error e →
    decodeBytes (bytesOfWord w ++ rest) = .error e) ∧
  ∀ b : Byte, decodeBytes [b] = .error .truncated

/-- R84: the pseudo-instructions assemble to the words the rule lists. -/
def Obligations.PseudoInstructionsExpandToTheirWords : Prop :=
  Pseudo.nop.expand.map encode = [0xA001] ∧ Pseudo.arm.expand.map encode = [0x4000, 0x3800] ∧
  (∀ rd : Reg, (Pseudo.poll rd).expand.map encode =
    [0x5800 ||| BitVec.ofNat 16 rd.number <<< 9, 0x90FF ||| BitVec.ofNat 16 rd.number <<< 9]) ∧
  Pseudo.halt.expand.map encode = [0xA800] ∧
  ∀ off : Int, (Pseudo.b off).expand = [.jmp off]

/-! ### The operations: results, frames and completion -/

/-- R101-R104: the four timer operations, in the handler and as a foreground fetch. Each result is the whole next state,
so everything not named is unchanged. BODY changes the counter by a start alone: it never issues TRESET. -/
def Obligations.TimerOperations : Prop :=
  (encode .tstart = 0x0800 ∧ encode .tstop = 0x1000 ∧ encode .tread = 0x1800 ∧ encode .treset = 0x2000) ∧
  (∀ s : State, s.hact = true →
    exec .tstart s = .next { s with cnt := 0, run := true } ∧
    exec .tstop s = .next { s with run := false } ∧
    exec .tread s = .next { s with hcap := s.cnt } ∧
    exec .treset s = .next { s with cnt := 0 }) ∧
  (∀ s : State, s.hact = false →
    exec .tstart s = .next { s with fault := some ⟨.context 0x0800, s.pc⟩, hist := s.hist ++ [.fault (.context 0x0800)] } ∧
    exec .tstop s = .next { s with fault := some ⟨.context 0x1000, s.pc⟩, hist := s.hist ++ [.fault (.context 0x1000)] } ∧
    exec .tread s = .next { s with fault := some ⟨.context 0x1800, s.pc⟩, hist := s.hist ++ [.fault (.context 0x1800)] } ∧
    exec .treset s = .next { s with fault := some ⟨.context 0x2000, s.pc⟩, hist := s.hist ++ [.fault (.context 0x2000)] }) ∧
  ∀ s : State, (body s).cnt = s.cnt ∨ (body s).cnt = 0 ∧ (body s).run = true ∧ (body s).dstate = .timing

/-- R121, R150, R153: the sample, the publish and the store of the duration, in the handler and as a foreground fetch. -/
def Obligations.SampleStoreAndPublish : Prop :=
  (encode .esample = 0x2800 ∧ encode .durwr = 0x6000 ∧ encode .rdyset = 0x4800) ∧
  (∀ s : State, s.hact = true →
    exec .esample s = .next { s with hlevel := s.line } ∧
    exec .durwr s = .next { s with dur := some s.hcap } ∧
    (s.rdy = false → exec .rdyset s = .next { s with rdy := true }) ∧
    (s.rdy = true → exec .rdyset s = .next { s with ovr := true })) ∧
  (∀ s : State, s.hact = false →
    exec .esample s = .next { s with fault := some ⟨.context 0x2800, s.pc⟩, hist := s.hist ++ [.fault (.context 0x2800)] } ∧
    exec .durwr s = .next { s with fault := some ⟨.context 0x6000, s.pc⟩, hist := s.hist ++ [.fault (.context 0x6000)] } ∧
    exec .rdyset s = .next { s with fault := some ⟨.context 0x4800, s.pc⟩, hist := s.hist ++ [.fault (.context 0x4800)] })

/-- R122-R124: disarm, arm and clear the pending flag; EDISABLE in both contexts. After EENABLE with an edge pending a
notification is deliverable at once. -/
def Obligations.ArmDisarmAndClearPending : Prop :=
  (encode .edisable = 0x3000 ∧ encode .eenable = 0x3800 ∧ encode .eclrpend = 0x4000) ∧
  (∀ s : State, s.hact = true → exec .edisable s = .next { s with en := false, hist := s.hist ++ [.disarm] }) ∧
  (∀ s : State, s.hact = false →
    exec .edisable s = .next { s with en := false, hist := s.hist ++ [.disarm], pc := s.pc + 1 } ∧
    exec .eenable s = .next { s with en := true, hist := s.hist ++ [.arm], pc := s.pc + 1 } ∧
    exec .eclrpend s = .next { s with pf := false, hist := s.hist ++ [.clrPend], pc := s.pc + 1 }) ∧
  ∀ s t : State, s.hact = false → s.fault = none → s.pf = true → exec .eenable s = .next t → enabled t .entry = true

/-- R151, R152: clear and test the ready flag. -/
def Obligations.ClearAndTestReadyFlag : Prop :=
  encode .rdyclr = 0x5000 ∧ (∀ rd : Reg, encode (.rdytst rd) = 0x5800 ||| BitVec.ofNat 16 rd.number <<< 9) ∧
  ∀ (s : State) (rd : Reg),
    exec .rdyclr s = .next { s with rdy := false, hist := s.hist ++ [.clr], pc := s.pc + 1 } ∧
    (s.rdy = true → exec (.rdytst rd) s = .next { s with regs := s.regs.write rd 0x00000001, pc := s.pc + 1 }) ∧
    (s.rdy = false → exec (.rdytst rd) s = .next { s with regs := s.regs.write rd 0x00000000, pc := s.pc + 1 })

/-- R154: DURRD reads the duration; it faults on an unwritten one, and then on a read that is not atomic while armed. -/
def Obligations.ReadDuration : Prop :=
  (∀ rd : Reg, encode (.durrd rd) = 0x6800 ||| BitVec.ofNat 16 rd.number <<< 9) ∧
  ∀ (s : State) (rd : Reg),
    (s.dur = none →
      exec (.durrd rd) s = .next { s with fault := some ⟨.unwrittenDur, s.pc⟩, hist := s.hist ++ [.fault .unwrittenDur] }) ∧
    (∀ d, s.dur = some d → s.en = true → s.cfg.durAtomic = false →
      exec (.durrd rd) s = .next { s with fault := some ⟨.raceDur d, s.pc⟩, hist := s.hist ++ [.fault (.raceDur d)] }) ∧
    (∀ d, s.dur = some d → s.en = false ∨ s.cfg.durAtomic = true →
      exec (.durrd rd) s =
        .next { s with regs := s.regs.write rd (BitVec.ofNat 32 d), hist := s.hist ++ [.read d], pc := s.pc + 1 })

/-- R172: SCALE under both modes, with its two faults; a DURRD result is never out of range. -/
def Obligations.ScaleSubtractsTheBaseline : Prop :=
  (∀ rd rs : Reg, encode (.scale rd rs) =
    0x7000 ||| BitVec.ofNat 16 rd.number <<< 9 ||| BitVec.ofNat 16 rs.number <<< 7) ∧
  ∀ (s : State) (rd rs : Reg),
    (s.regs.read rs = none →
      exec (.scale rd rs) s =
        .next { s with fault := some ⟨.unwrittenReg rs, s.pc⟩, hist := s.hist ++ [.fault (.unwrittenReg rs)] }) ∧
    (∀ v : Word, s.regs.read rs = some v → s.cfg.scaleMode = .signed →
      -(2 ^ 31) ≤ v.toInt - s.cfg.baseline → v.toInt - s.cfg.baseline < 2 ^ 31 →
      ∃ p : Word, p.toInt = v.toInt - s.cfg.baseline ∧
        exec (.scale rd rs) s = .next { s with regs := s.regs.write rd p, pc := s.pc + 1 }) ∧
    (∀ v : Word, s.regs.read rs = some v → s.cfg.scaleMode = .signed →
      (v.toInt - s.cfg.baseline < -(2 ^ 31) ∨ 2 ^ 31 ≤ v.toInt - s.cfg.baseline) →
      exec (.scale rd rs) s = .next { s with
        fault := some ⟨.overflow (v.toInt - s.cfg.baseline), s.pc⟩
        hist := s.hist ++ [.fault (.overflow (v.toInt - s.cfg.baseline))] }) ∧
    (∀ v : Word, s.regs.read rs = some v → s.cfg.scaleMode = .wrap → s.cfg.width ≤ 16 →
      ∃ p : Word, (p.toNat : Int) = ((v.toNat : Int) - s.cfg.baseline) % 2 ^ s.cfg.width ∧
        exec (.scale rd rs) s = .next { s with regs := s.regs.write rd p, pc := s.pc + 1 }) ∧
    (∀ d : Nat, s.cfg.wf = true → d < s.cfg.modulus →
      -(2 ^ 31) ≤ (BitVec.ofNat 32 d).toInt - s.cfg.baseline ∧ (BitVec.ofNat 32 d).toInt - s.cfg.baseline < 2 ^ 31)

/-- R172, R218: the register image of a duration never overflows SCALE, whatever the mode. -/
def Obligations.ScaleOfADurationCompletes : Prop :=
  ∀ (s : State) (rd rs : Reg) (d : Nat), s.cfg.wf = true → d < s.cfg.modulus →
    s.regs.read rs = some (BitVec.ofNat 32 d) →
    ∃ p : Word, exec (.scale rd rs) s = .next { s with regs := s.regs.write rd p, pc := s.pc + 1 } ∧
      (s.cfg.scaleMode = .signed → p.toInt = (d : Int) - s.cfg.baseline) ∧
      (s.cfg.scaleMode = .wrap → (p.toNat : Int) = ((d : Int) - s.cfg.baseline) % 2 ^ s.cfg.width)

/-- R173: CMPTH compares the signed value with the threshold; equality gives 1. -/
def Obligations.CompareWithTheThreshold : Prop :=
  (∀ rd rs : Reg, encode (.cmpth rd rs) =
    0x7800 ||| BitVec.ofNat 16 rd.number <<< 9 ||| BitVec.ofNat 16 rs.number <<< 7) ∧
  ∀ (s : State) (rd rs : Reg),
    (s.regs.read rs = none →
      exec (.cmpth rd rs) s =
        .next { s with fault := some ⟨.unwrittenReg rs, s.pc⟩, hist := s.hist ++ [.fault (.unwrittenReg rs)] }) ∧
    (∀ v : Word, s.regs.read rs = some v → (s.cfg.threshold : Int) ≤ v.toInt →
      exec (.cmpth rd rs) s = .next { s with regs := s.regs.write rd 0x00000001, pc := s.pc + 1 }) ∧
    (∀ v : Word, s.regs.read rs = some v → v.toInt < s.cfg.threshold →
      exec (.cmpth rd rs) s = .next { s with regs := s.regs.write rd 0x00000000, pc := s.pc + 1 })

/-- R174: OUTSET drives the output ON for any non-zero value, and emits the write each time. -/
def Obligations.DriveTheOutput : Prop :=
  (∀ rs : Reg, encode (.outset rs) = 0x8000 ||| BitVec.ofNat 16 rs.number <<< 7) ∧
  ∀ (s : State) (rs : Reg),
    (s.regs.read rs = none →
      exec (.outset rs) s =
        .next { s with fault := some ⟨.unwrittenReg rs, s.pc⟩, hist := s.hist ++ [.fault (.unwrittenReg rs)] }) ∧
    (∀ v : Word, s.regs.read rs = some v → v.toNat ≠ 0 →
      exec (.outset rs) s = .next { s with out := true, hist := s.hist ++ [.out true], pc := s.pc + 1 }) ∧
    (∀ v : Word, s.regs.read rs = some v → v.toNat = 0 →
      exec (.outset rs) s = .next { s with out := false, hist := s.hist ++ [.out false], pc := s.pc + 1 })

/-- R193: LDI loads its immediate without sign extension, whatever the register held. -/
def Obligations.LoadImmediate : Prop :=
  ∀ (s : State) (rd : Reg) (imm : Nat), imm ≤ 255 →
    encode (.ldi rd imm) = 0x8800 ||| BitVec.ofNat 16 rd.number <<< 9 ||| BitVec.ofNat 16 imm ∧
    ∃ v : Word, v.toNat = imm ∧ exec (.ldi rd imm) s = .next { s with regs := s.regs.write rd v, pc := s.pc + 1 }

/-- R195, R196: BZ and BNZ, taken and untaken; a taken branch outside the program faults and an untaken one never does. -/
def Obligations.ConditionalBranches : Prop :=
  ∀ (s : State) (ra : Reg) (off : Int),
    (s.regs.read ra = none →
      exec (.bz ra off) s =
        .next { s with fault := some ⟨.unwrittenReg ra, s.pc⟩, hist := s.hist ++ [.fault (.unwrittenReg ra)] } ∧
      exec (.bnz ra off) s =
        .next { s with fault := some ⟨.unwrittenReg ra, s.pc⟩, hist := s.hist ++ [.fault (.unwrittenReg ra)] }) ∧
    (∀ v : Word, s.regs.read ra = some v → v.toNat ≠ 0 → exec (.bz ra off) s = .next { s with pc := s.pc + 1 }) ∧
    (∀ v : Word, s.regs.read ra = some v → v.toNat = 0 → exec (.bnz ra off) s = .next { s with pc := s.pc + 1 }) ∧
    (∀ (v : Word) (t : Nat), s.regs.read ra = some v → (t : Int) = s.pc + off → t < s.cfg.plen →
      (v.toNat = 0 → exec (.bz ra off) s = .next { s with pc := t }) ∧
      (v.toNat ≠ 0 → exec (.bnz ra off) s = .next { s with pc := t })) ∧
    (∀ v : Word, s.regs.read ra = some v → (s.pc + off < 0 ∨ (s.cfg.plen : Int) ≤ s.pc + off) →
      (v.toNat = 0 → exec (.bz ra off) s =
        .next { s with fault := some ⟨.fetch (s.pc + off), s.pc⟩, hist := s.hist ++ [.fault (.fetch (s.pc + off))] }) ∧
      (v.toNat ≠ 0 → exec (.bnz ra off) s =
        .next { s with fault := some ⟨.fetch (s.pc + off), s.pc⟩, hist := s.hist ++ [.fault (.fetch (s.pc + off))] })) ∧
    (-128 ≤ off → off ≤ 127 →
      encode (.bz ra off) = 0x9000 ||| BitVec.ofNat 16 ra.number <<< 9 ||| (BitVec.ofInt 8 off).setWidth 16 ∧
      encode (.bnz ra off) = 0x9800 ||| BitVec.ofNat 16 ra.number <<< 9 ||| (BitVec.ofInt 8 off).setWidth 16)

/-- R197, R198: JMP goes to its target or faults outside the program; STOP sets `fstop` and leaves the pc, the foreground
has no step after it, and ENV and HND keep theirs. -/
def Obligations.JumpAndStop : Prop :=
  ∀ s : State,
    (∀ (off : Int) (t : Nat), (t : Int) = s.pc + off → t < s.cfg.plen → exec (.jmp off) s = .next { s with pc := t }) ∧
    (∀ off : Int, (s.pc + off < 0 ∨ (s.cfg.plen : Int) ≤ s.pc + off) → exec (.jmp off) s =
      .next { s with fault := some ⟨.fetch (s.pc + off), s.pc⟩, hist := s.hist ++ [.fault (.fetch (s.pc + off))] }) ∧
    exec .stop s = .next { s with fstop := true } ∧ encode .stop = 0xA800 ∧
    enabled { s with fstop := true } .foreground = false ∧
    (∀ u : Turn, u ≠ .foreground → enabled { s with fstop := true } u = enabled s u) ∧
    ∀ (off : Int), -128 ≤ off → off ≤ 127 →
      encode (.jmp off) = 0xA000 ||| (BitVec.ofInt 8 off).setWidth 16

/-- R34: a register reads what was last written to it, and a write leaves the other registers alone. -/
def Obligations.RegistersReadWhatWasWritten : Prop :=
  ∀ (f : RegFile) (r q : Reg) (v : Word),
    (f.write r v).read r = some v ∧ (q ≠ r → (f.write r v).read q = f.read q)

/-! ### Rules over all operations -/

/-- Every operation answers a next state, in every state: none of the 21 stops the machine. Derived from R211: a raised
fault is a recorded next state. -/
def Obligations.EveryOperationAnswersANextState : Prop :=
  ∀ (i : Instr) (s : State), ∃ t, exec i s = .next t

/-- R211: a fault is sticky and ends the run, and the step that raises it changes nothing but `fault` and `hist`. -/
def Obligations.FaultsAreStickyAndChangeNothingElse : Prop :=
  (∀ (u : Turn) (s t : State), s.fault = none → perform u s = .next t → t.fault ≠ none →
    ∃ r, t = { s with fault := some ⟨r, s.pc⟩, hist := s.hist ++ [.fault r] }) ∧
  (∀ (s : State) (r : FaultRecord), s.fault = some r →
    enabledTurns s = [] ∧ (∀ t, step s ≠ .next t) ∧ s.ended = false)

/-- R210: each fault reason has its code, is raised by the operations of its row, from its cause, with its information and
the pc of the foreground step, and is emitted; no step of ENV or HND raises a fault. -/
def Obligations.EachFaultHasItsCause : Prop :=
  (∀ (w : CommandWord) (z : Int) (q : Reg) (v : Nat),
    [.illegal w, .context w, .fetch z, .unwrittenReg q, .unwrittenDur, .raceDur v, .overflow z].map FaultReason.code =
      [1, 2, 3, 4, 5, 6, 7]) ∧
  (∀ (u : Turn) (s t : State), u ≠ .foreground → perform u s = .next t → t.fault = s.fault) ∧
  ∀ (s t : State) (r : FaultRecord), s.hact = false → s.fault = none → foregroundStep s = .next t → t.fault = some r →
    r.pc = s.pc ∧ t.hist = s.hist ++ [.fault r.reason] ∧
    match r.reason with
    | .illegal w => fetchWord s.cfg.prog s.pc = some w ∧ s.operation = none
    | .context w => fetchWord s.cfg.prog s.pc = some w ∧ ∃ i, s.operation = some i ∧ i.context = .handler
    | .fetch z =>
      (z = s.pc ∧ s.cfg.plen ≤ s.pc) ∨
        ((z < 0 ∨ (s.cfg.plen : Int) ≤ z) ∧
          ∃ off : Int, z = s.pc + off ∧
            (s.operation = some (.jmp off) ∨
              ∃ ra, s.operation = some (.bz ra off) ∧ s.regs.read ra = some 0 ∨
                s.operation = some (.bnz ra off) ∧ ∃ v, v ≠ 0 ∧ s.regs.read ra = some v))
    | .unwrittenReg q => s.regs.read q = none ∧ ∃ i, s.operation = some i ∧ q ∈ i.sources
    | .unwrittenDur => s.dur = none ∧ ∃ rd, s.operation = some (.durrd rd)
    | .raceDur v =>
      s.dur = some v ∧ s.en = true ∧ s.cfg.durAtomic = false ∧ ∃ rd, s.operation = some (.durrd rd)
    | .overflow z =>
      s.cfg.scaleMode = .signed ∧ (z < -(2 ^ 31) ∨ 2 ^ 31 ≤ z) ∧
        ∃ rd rs v, s.operation = some (.scale rd rs) ∧ s.regs.read rs = some v ∧ z = v.toInt - s.cfg.baseline

/-- R219: a foreground step reports the first fault that applies in the rule's order, and no fault when none applies. -/
def Obligations.FirstFaultInOrderIsReported : Prop :=
  ∀ s : State, s.hact = false → s.fault = none →
    ∃ t, foregroundStep s = .next t ∧ t.fault.map FaultRecord.reason = s.firstFault

/-- R213: in the foreground each of the seven handler-only operations faults with F_CONTEXT and its own word. -/
def Obligations.HandlerOnlyOperationsFaultInTheForeground : Prop :=
  (∀ i : Instr, i.context = .handler ↔ i ∈ [.tstart, .tstop, .tread, .treset, .esample, .rdyset, .durwr]) ∧
  ∀ (i : Instr) (s : State), i.context = .handler → s.hact = false →
    exec i s = .next { s with
      fault := some ⟨.context (encode i), s.pc⟩, hist := s.hist ++ [.fault (.context (encode i))] }

/-- R42: outside the handler an operation never touches what only the handler touches, and never sets the ready flag or
writes the duration; one that would faults with F_CONTEXT. In a step of ENV or HND the foreground's own state is
untouched and the flag is not cleared. -/
def Obligations.EachContextTouchesOnlyItsState : Prop :=
  (∀ (i : Instr) (s t : State), s.hact = false → exec i s = .next t →
    t.cnt = s.cnt ∧ t.run = s.run ∧ t.dstate = s.dstate ∧ t.hlevel = s.hlevel ∧ t.hcap = s.hcap ∧ t.dur = s.dur ∧
      (t.rdy = true → s.rdy = true) ∧ t.ovr = s.ovr ∧ t.line = s.line ∧ t.hact = false ∧
      (t.en ≠ s.en → i = .edisable ∨ i = .eenable) ∧ (t.pf ≠ s.pf → i = .eclrpend) ∧
      (i.context = .handler → t.fault = some ⟨.context (encode i), s.pc⟩)) ∧
  (∀ (u : Turn) (s t : State), u ≠ .foreground → perform u s = .next t →
    t.out = s.out ∧ t.pc = s.pc ∧ t.regs = s.regs ∧ t.fstop = s.fstop ∧ (s.rdy = true → t.rdy = true) ∧
      (t.dur ≠ s.dur → u = .body) ∧ (t.cnt ≠ s.cnt → u = .tick ∨ u = .body))

/-- R231 and R42: the foreground cannot learn the counter or anything else of the measurement in progress; its step does
the same whatever those hold. -/
def Obligations.ForegroundCannotReadTheMeasurement : Prop :=
  ∀ (s : State) (line : Bool) (cnt : Nat) (run : Bool) (d : DecoderState) (hlevel : Bool) (hcap : Nat), s.hact = false →
    foregroundStep (s.withMeasurement line cnt run d hlevel hcap) =
      mapNext (fun t => t.withMeasurement line cnt run d hlevel hcap) (foregroundStep s)

/-! ### The steps of the agents -/

/-- A foreground step runs the operation the word at the pc decodes to, in the state with the turn used up (the schedule is
the model's own, log entry 4). -/
def Obligations.ForegroundStepRunsTheDecodedOperation : Prop :=
  ∀ (s : State) (rest : List Turn) (w : CommandWord) (i : Instr), s.cfg.wf = true → s.fault = none → s.hact = false →
    s.fstop = false → s.schedule = .foreground :: rest → s.cfg.prog[s.pc]? = some w → decodeWord w = .ok i →
    step s = exec i { s with schedule := rest }

/-- R190: the foreground has a step exactly when no fault is recorded, no handler is active and it has not stopped;
it fetches inside the program and faults outside it. -/
def Obligations.ForegroundFetch : Prop :=
  ∀ s : State,
    (enabled s .foreground = true ↔ s.fault = none ∧ s.hact = false ∧ s.fstop = false) ∧
    (s.cfg.plen ≤ s.pc →
      foregroundStep s =
        .next { s with fault := some ⟨.fetch s.pc, s.pc⟩, hist := s.hist ++ [.fault (.fetch s.pc)] }) ∧
    (∀ h : s.pc < s.cfg.prog.length, fetchWord s.cfg.prog s.pc = some s.cfg.prog[s.pc])

/-- R100, R105: TICK, enabled whenever no fault is recorded. -/
def Obligations.TickStep : Prop :=
  ∀ s : State,
    (enabled s .tick = true ↔ s.fault = none) ∧
    (s.run = true → perform .tick s = .next { s with
      cnt := (s.cnt + 1) % 2 ^ s.cfg.width, hist := s.hist ++ [.tick (some ((s.cnt + 1) % 2 ^ s.cfg.width))] }) ∧
    (s.run = false → perform .tick s = .next { s with hist := s.hist ++ [.tick none] })

/-- R120: EDGE, enabled whenever no fault is recorded, with each value of PEND_WHILE_DISARMED and each draw. -/
def Obligations.EdgeStep : Prop :=
  ∀ (s : State) (b : Bool),
    (enabled s (.edge b) = true ↔ s.fault = none) ∧
    (s.en = true ∨ s.cfg.pendWhileDisarmed = .latch →
      perform (.edge b) s = .next { s with line := !s.line, pf := true, hist := s.hist ++ [.edge (!s.line)] }) ∧
    (s.en = false → s.cfg.pendWhileDisarmed = .noLatch →
      perform (.edge b) s = .next { s with line := !s.line, hist := s.hist ++ [.edge (!s.line)] }) ∧
    (s.en = false → s.cfg.pendWhileDisarmed = .either →
      perform (.edge b) s = .next { s with line := !s.line, pf := s.pf || b, hist := s.hist ++ [.edge (!s.line)] })

/-- R130: ENTRY, enabled only with the handler idle, armed and with an edge pending; it clears the pending flag, makes the
handler active, and saves nothing; from then FG has no step and ENV keeps its steps. -/
def Obligations.EntryStep : Prop :=
  ∀ s : State,
    (enabled s .entry = true ↔ s.fault = none ∧ s.hact = false ∧ s.en = true ∧ s.pf = true) ∧
    perform .entry s = .next { s with pf := false, hact := true, hist := s.hist ++ [.entry] } ∧
    ∀ t, perform .entry s = .next t →
      enabled t .foreground = false ∧ enabled t .tick = enabled s .tick ∧ ∀ b, enabled t (.edge b) = enabled s (.edge b)

/-- R132-R135: BODY by the table of R132: START on a high sample, CAPTURE on a low one, and IGNORE under STRICT for the
two transitions the source does not list. -/
def Obligations.BodyStep : Prop :=
  ∀ s : State,
    (enabled s .body = true ↔ s.fault = none ∧ s.hact = true) ∧
    (s.line = true → (s.cfg.edgePolicy = .level ∨ s.dstate = .idle) →
      perform .body s = .next { s with
        hlevel := true, cnt := 0, run := true, dstate := .timing, hact := false, hist := s.hist ++ [.start] }) ∧
    (s.line = false → (s.cfg.edgePolicy = .level ∨ s.dstate = .timing) →
      perform .body s = .next { s with
        hlevel := false, run := false, hcap := s.cnt, dur := some s.cnt, ovr := s.ovr || s.rdy, rdy := true
        en := false, dstate := .idle, hact := false, hist := s.hist ++ [.disarm, .capture s.cnt] }) ∧
    (s.cfg.edgePolicy = .strict → (s.line = true ∧ s.dstate = .timing ∨ s.line = false ∧ s.dstate = .idle) →
      perform .body s = .next { s with
        hlevel := s.line, hact := false, hist := s.hist ++ [.ignored s.dstate s.line] })

/-- R131: BODY is its listing of micro-operations executed in the handler context, with the change of the decoder state, the
event and the return around it; TRESET is never among them. -/
def Obligations.BodyRunsItsListing : Prop :=
  ∀ s : State, s.hact = true →
    (dispatch s.cfg.edgePolicy s.dstate s.line = .start →
      ∃ t, execAll [.esample, .tstart] s = .next t ∧
        body s = { t with dstate := .timing, hist := t.hist ++ [.start], hact := false }) ∧
    (dispatch s.cfg.edgePolicy s.dstate s.line = .capture →
      ∃ t, execAll [.esample, .tstop, .tread, .durwr, .rdyset, .edisable] s = .next t ∧
        body s = { t with dstate := .idle, hist := t.hist ++ [.capture t.hcap], hact := false }) ∧
    (dispatch s.cfg.edgePolicy s.dstate s.line = .ignore →
      ∃ t, execAll [.esample] s = .next t ∧
        body s = { t with hist := t.hist ++ [.ignored t.dstate t.hlevel], hact := false })

/-- R226: any step that is enabled may be taken next, at the head of a schedule (the schedule is the model's own, log
entry 4); one that is not enabled is no execution. -/
def Obligations.AnyEnabledStepMayBeNext : Prop :=
  ∀ (s : State) (u : Turn) (rest : List Turn), s.cfg.wf = true → s.fault = none → s.schedule = u :: rest →
    (enabled s u = true → step s = perform u { s with schedule := rest }) ∧
    (enabled s u = false → step s = .fault (.notEnabled u))

/-- R226: where nothing is scheduled the step taken is one of the enabled ones, so the machine goes on (which one is the
free value of log entry 4; nothing is said of it). -/
def Obligations.UnscheduledStepsAreEnabledSteps : Prop :=
  ∀ s : State, s.cfg.wf = true → s.fault = none → s.schedule = [] →
    enabled s (nextTurn s) = true ∧ step s = perform (nextTurn s) { s with turns := s.turns + 1 } ∧ ∃ t, step s = .next t

/-- Derived from R171, R9 and R11: a configuration outside the bounds is given no meaning, and one inside them is. R171 lists
the bounds of W, BASELINE, FULLSCALE and PCT and refuses before the run starts. The model's own: PLEN's bounds among the
checks (DEDUCED from R11) and the check at every step (DESIGN CHOICE), log entry 15; a zero denominator of PCT refused
(DESIGN CHOICE), log entry 9. -/
def Obligations.IllFormedConfigurationsAreRefused : Prop :=
  ∀ s : State,
    (step s = .refused .illFormedConfig ↔
      ¬ ((1 ≤ s.cfg.width ∧ s.cfg.width ≤ 16) ∧ s.cfg.baseline < 2 ^ s.cfg.width ∧ s.cfg.fullscale < 2 ^ 31 ∧
        (0 < s.cfg.pct.den ∧ s.cfg.pct.num ≤ 100 * s.cfg.pct.den) ∧ 1 ≤ s.cfg.plen ∧ s.cfg.plen ≤ 65536)) ∧
    ∀ r, step s = .refused r → r = .illFormedConfig

/-! ### Invariants and whole-machine rules -/

/-- The reset state is a launch state of R241, meets the invariant and has a history that accounts for it. Its
configuration, program and draws are the model's choice (log entries 1, 2, 3). -/
def Obligations.ResetIsALaunchState : Prop :=
  State.reset.IsLaunch ∧ State.reset.Inv ∧ State.reset.HistoryAgrees

/-- R241: every launch state, whatever its draws and its configuration, meets the invariant and has a history that accounts
for it, and `State.launch` gives a launch state for every draw. -/
def Obligations.LaunchStatesMeetTheInvariant : Prop :=
  (∀ s : State, s.IsLaunch → s.Inv ∧ s.HistoryAgrees) ∧
  ∀ (c : Config) (line pf out hlevel : Bool) (cnt hcap : Nat), c.wf = true → cnt < 2 ^ c.width → hcap < 2 ^ c.width →
    (State.launch c line pf out hlevel cnt hcap).IsLaunch

/-- Every step keeps the invariant: widths (R22, R29, R31), the pc within the program or just past it (R33), the counter
running exactly in Timing (R26), the handler active only while armed (R130), a duration behind every set flag (R156). -/
def Obligations.StepsKeepTheInvariant : Prop :=
  ∀ s t : State, s.Inv → step s = .next t → t.Inv

/-- R37, R38: every step keeps the history in agreement with the state, so the events alone tell the handoff, the decoder
state, the fault, and whether a measurement was published over an unconsumed one. -/
def Obligations.StepsKeepTheHistoryInAgreement : Prop :=
  ∀ s t : State, s.HistoryAgrees → step s = .next t → t.HistoryAgrees

/-- R39, R51: no step writes the configuration, PROG included. -/
def Obligations.NoStepWritesTheConfiguration : Prop :=
  ∀ s t : State, step s = .next t → t.cfg = s.cfg

/-- R37: a step only appends to the history. -/
def Obligations.HistoryOnlyGrows : Prop :=
  ∀ s t : State, step s = .next t → ∃ es, t.hist = s.hist ++ es ∧ es.length ≤ 2

/-- R194, R31: a written register stays written, and so does the duration. -/
def Obligations.WrittenStaysWritten : Prop :=
  ∀ s t : State, step s = .next t →
    (∀ r, s.regs.read r ≠ none → t.regs.read r ≠ none) ∧ (s.dur ≠ none → t.dur ≠ none)

/-- R35, R198: after STOP the foreground has no step and its state never changes again, while the block goes on. -/
def Obligations.StoppedForegroundStaysStopped : Prop :=
  ∀ s : State, s.fstop = true →
    enabled s .foreground = false ∧
    (∀ t, step s = .next t →
      t.fstop = true ∧ t.pc = s.pc ∧ t.regs = s.regs ∧ t.out = s.out ∧ t.fault = none ∧ nextTurn s ≠ .foreground) ∧
    (∀ u : Turn, u ≠ .foreground → enabled s u = enabled { s with fstop := false } u)

/-- R159: while disarmed with no handler active no step of HND is enabled; a step leaves the decoder, the capture and
the handoff's handler side as they were, and only the foreground's EENABLE arms the block. -/
def Obligations.DisarmedWindowExcludesTheHandler : Prop :=
  ∀ s : State, s.en = false → s.hact = false →
    enabled s .entry = false ∧ enabled s .body = false ∧
    ∀ t, step s = .next t →
      t.hact = false ∧ t.dstate = s.dstate ∧ t.run = s.run ∧ t.dur = s.dur ∧ t.hcap = s.hcap ∧ t.ovr = s.ovr ∧
        (t.rdy = true → s.rdy = true) ∧
        (t.en = true → nextTurn s = .foreground ∧ s.operation = some .eenable)

/-- R221, R225: during a handler run the foreground has no step, and neither it nor the fault record is changed by any step
until the handler returns; ENTRY is not enabled again. -/
def Obligations.HandlerRunExcludesTheForeground : Prop :=
  ∀ s : State, s.hact = true →
    enabled s .foreground = false ∧ enabled s .entry = false ∧
    ∀ t, step s = .next t →
      t.pc = s.pc ∧ t.regs = s.regs ∧ t.fstop = s.fstop ∧ t.out = s.out ∧ t.fault = none ∧
        (t.hact = false ↔ nextTurn s = .body) ∧ (t.en = s.en ∨ nextTurn s = .body)

/-- R222, R223: what ENV and HND do, and when they may, does not depend on the foreground's state, and they leave it alone. -/
def Obligations.BlockIgnoresTheForeground : Prop :=
  ∀ (u : Turn) (s : State) (pc : Nat) (regs : RegFile) (fstop out : Bool), u ≠ .foreground →
    enabled (s.withForeground pc regs fstop out) u = enabled s u ∧
    perform u (s.withForeground pc regs fstop out) = mapNext (fun t => t.withForeground pc regs fstop out) (perform u s)

/-- R37, R38, R12: no rule reads the ghost history or the ghost `ovr`, and none reads the informational parameters: states
that differ in them only step to states that differ in them only. -/
def Obligations.MonitorsAndInformationAreNeverRead : Prop :=
  (∀ (s : State) (h : List Event) (o : Bool),
    mapNext (fun t => t.withGhosts [] false) (step (s.withGhosts h o)) =
      mapNext (fun t => t.withGhosts [] false) (step s)) ∧
  ∀ (s : State) (p f : Option Nat) (a : Option Bool),
    step (s.withInformation p f a) = mapNext (fun t => t.withInformation p f a) (step s)

/-- R137: there is no timeout: Timing is left only by a BODY that samples a low line, and until then the flag is not set. -/
def Obligations.TimingIsLeftOnlyByACapture : Prop :=
  ∀ s t : State, s.dstate = .timing → step s = .next t →
    (t.dstate ≠ .timing → nextTurn s = .body ∧ s.line = false ∧ t.dur = some s.cnt ∧ t.rdy = true ∧ t.en = false) ∧
    (t.dstate = .timing → s.rdy = false → t.rdy = false)

/-- R106 (an inference the spec marks as derived): a start, n ticks and a read store n modulo 2^W. -/
def Obligations.TimerCountsItsTicks : Prop :=
  ∀ (n : Nat) (s : State), s.hact = true →
    ∃ s1 t, exec .tstart s = .next s1 ∧ exec .tread (ticks n s1) = .next t ∧ t.hcap = n % 2 ^ s.cfg.width

/-- R139 (an inference the spec marks as derived): one clean pulse publishes the number of ticks between its two BODY steps, modulo 2^W. Steps of every kind but
EDGE may be mixed in anywhere, the foreground issuing no EDISABLE, EENABLE or ECLRPEND; ticks before the first BODY are
not counted, and those between the second EDGE and the second BODY are. -/
def Obligations.CleanPulsePublishesItsTicks : Prop :=
  ∀ (s t : State) (b1 b2 : Bool) (l1 l2 l3 l4 l5 rest first second : List Turn),
    s.dstate = .idle → s.en = true → s.pf = false → s.hact = false → s.line = false →
    noEdge (l1 ++ l2 ++ l3 ++ l4 ++ l5) = true →
    first = .edge b1 :: l1 ++ .entry :: l2 ++ [.body] →
    second = l3 ++ .edge b2 :: l4 ++ .entry :: l5 ++ [.body] →
    s.schedule = first ++ second ++ rest →
    (∀ k u, k < (first ++ second).length → runFor k s = .next u → nextTurn u = .foreground →
      u.operation ≠ some .edisable ∧ u.operation ≠ some .eenable ∧ u.operation ≠ some .eclrpend) →
    runFor (first ++ second).length s = .next t →
    (∃ u, runFor first.length s = .next u ∧ u.dstate = .timing ∧ u.cnt = 0 ∧ u.hist.getLast? = some .start) ∧
    t.hist.getLast? = some (.capture (tickCount (l3 ++ l4 ++ l5) % 2 ^ s.cfg.width)) ∧
    t.dur = some (tickCount (l3 ++ l4 ++ l5) % 2 ^ s.cfg.width) ∧
    t.rdy = true ∧ t.en = false ∧ t.dstate = .idle ∧ t.run = false

/-- R170: TH is the floor of PCT × FULLSCALE / 100, and lies between 0 and FULLSCALE, which it reaches at PCT = 0 and
PCT = 100. -/
def Obligations.ThresholdIsTheExactFloor : Prop :=
  ∀ c : Config, c.wf = true →
    c.threshold * (100 * c.pct.den) ≤ c.pct.num * c.fullscale ∧
    c.pct.num * c.fullscale < (c.threshold + 1) * (100 * c.pct.den) ∧ c.threshold ≤ c.fullscale ∧
    (c.pct.num = 0 → c.threshold = 0) ∧ (c.pct.num = 100 * c.pct.den → c.threshold = c.fullscale)

/-- R176 (an inference the spec marks as derived): reading a consumed duration, scaling, comparing and driving completes for every duration below 2^W and every
choice of registers, with the output the rule gives, and changes nothing but registers, output, pc and history. -/
def Obligations.ActuatorDecision : Prop :=
  ∀ (s : State) (a b c : Reg) (d : Nat), s.cfg.wf = true → s.dur = some d → d < 2 ^ s.cfg.width →
    (s.en = false ∨ s.cfg.durAtomic = true) →
    ∃ (t : State) (on : Bool), execAll (decisionOps a b c) s = .next t ∧
      t = { s with regs := t.regs, out := on, pc := s.pc + 4, hist := s.hist ++ [.read d, .out on] } ∧
      (s.cfg.scaleMode = .signed → (on = true ↔ (s.cfg.threshold : Int) ≤ (d : Int) - s.cfg.baseline)) ∧
      (s.cfg.scaleMode = .wrap →
        (on = true ↔ (s.cfg.threshold : Int) ≤ ((d : Int) - s.cfg.baseline) % 2 ^ s.cfg.width)) ∧
      ∀ q, q ≠ a → q ≠ b → q ≠ c → t.regs.read q = s.regs.read q

/-- R177 (an inference the spec marks as derived): a longer duration has a larger scaled value and is ON whenever a shorter one is: over all durations under SIGNED,
from BASELINE on under WRAP. -/
def Obligations.DecisionIsMonotonic : Prop :=
  ∀ (s1 s2 : State) (d1 d2 : Nat) (a b : Reg), s1.cfg = s2.cfg → s1.cfg.wf = true → d1 < d2 → d2 < 2 ^ s1.cfg.width →
    (s1.cfg.scaleMode = .signed ∨ s1.cfg.baseline ≤ d1) →
    s1.regs.read a = some (BitVec.ofNat 32 d1) → s2.regs.read a = some (BitVec.ofNat 32 d2) →
    ∃ (t1 t2 : State) (v1 v2 : Word), exec (.scale b a) s1 = .next t1 ∧ exec (.scale b a) s2 = .next t2 ∧
      t1.regs.read b = some v1 ∧ t2.regs.read b = some v2 ∧ v1.toInt < v2.toInt ∧
      ((s1.cfg.threshold : Int) ≤ v1.toInt → (s2.cfg.threshold : Int) ≤ v2.toInt)

/-- R178 (an inference the spec marks as derived): running the decision twice on the same duration gives the same output and the same registers both times. -/
def Obligations.DecisionIsIdempotent : Prop :=
  ∀ (s : State) (a b c : Reg) (d : Nat), s.cfg.wf = true → s.dur = some d → d < 2 ^ s.cfg.width →
    (s.en = false ∨ s.cfg.durAtomic = true) →
    ∃ t u : State, execAll (decisionOps a b c) s = .next t ∧ execAll (decisionOps a b c) t = .next u ∧
      t.fault = s.fault ∧ u.fault = s.fault ∧ u.out = t.out ∧ u.regs = t.regs ∧ u.dur = s.dur

/-- R244 (an inference the spec marks as derived): consuming a measurement and re-arming restores the launch values of every fixed component. -/
def Obligations.ConsumeAndRearmRestoresLaunchValues : Prop :=
  ∀ (s : State) (a b c : Reg) (d : Nat), s.cfg.wf = true → s.dur = some d → d < 2 ^ s.cfg.width → s.dstate = .idle →
    s.run = false → s.hact = false → s.en = false →
    ∃ t, execAll (.rdyclr :: decisionOps a b c ++ [.eclrpend, .eenable]) s = .next t ∧
      t.dstate = .idle ∧ t.en = true ∧ t.rdy = false ∧ t.pf = false ∧ t.hact = false ∧ t.run = false ∧
      t.fault = s.fault ∧ t.ovr = s.ovr ∧ t.dur = s.dur ∧ t.cnt = s.cnt ∧ t.pc = s.pc + 7

/-- R158's argument (an inference the spec marks as derived), for any program: if the foreground re-arms only after it has cleared the flag, then from launch on the
armed block always has a clear flag, and no measurement is ever published over an unconsumed one. -/
def Obligations.RearmAfterConsumeNeverDoublePublishes : Prop :=
  (∀ s : State, s.IsLaunch → s.Inv ∧ (s.en = true → s.rdy = false) ∧ s.ovr = false) ∧
  ∀ s t : State, s.Inv → (s.en = true → s.rdy = false) → s.ovr = false → s.rearmsConsumed → step s = .next t →
    t.Inv ∧ (t.en = true → t.rdy = false) ∧ t.ovr = false

/-- R227, R225: in every fair execution a handler run ends: from any state with the handler active, a later state has it
returned. No bound on when is stated. -/
def Obligations.HandlerRunsEndInFairExecutions : Prop :=
  ∀ (σ : Nat → State) (τ : Nat → Turn), FairExecution σ τ → ∀ n, (σ n).hact = true → ∃ m, n ≤ m ∧ (σ m).hact = false
end

