-- ==== Sys2Proof/Laws/Memory.lean ====
section
/-! SUPPORT. The program memory: reading after a load, and that the one operation that writes it (a loader's, R51, R242)
keeps its bounds. -/

namespace Sys2Proof.Laws

open Sys2Proof.Machine

theorem fetchWord_some_iff (m : Memory) (i : Nat) : (∃ w, fetchWord m i = some w) ↔ i < m.length := by
  rw [fetchWord]
  exact ⟨fun ⟨w, hw⟩ => (List.getElem?_eq_some_iff.mp hw).1, fun h => ⟨_, List.getElem?_eq_getElem h⟩⟩

/-- What was loaded is what is fetched. -/
theorem fetch_load_self (m : Memory) (i : Nat) (w : CommandWord) : fetchWord (loadWord m i w) i = some w := by
  unfold fetchWord loadWord
  split
  · simp [*]
  · have hl : (m ++ List.replicate (i - m.length) 0).length = i := by simp; omega
    rw [List.getElem?_append_right (by omega), hl]
    simp

/-- A load inside the memory leaves every other word alone. -/
theorem fetch_load_other (m : Memory) {i j : Nat} (w : CommandWord) (hi : i < m.length) (h : j ≠ i) :
    fetchWord (loadWord m i w) j = fetchWord m j := by
  simp [fetchWord, loadWord, hi, Ne.symm h]

theorem load_length (m : Memory) (i : Nat) (w : CommandWord) : (loadWord m i w).length = max m.length (i + 1) := by
  unfold loadWord
  split <;> simp <;> omega

/-- A load below index 65536 keeps the bounds of PLEN. -/
theorem load_keeps_wf (m : Memory) (i : Nat) (w : CommandWord) (h : m.wf = true) (hi : i < 65536) :
    (loadWord m i w).wf = true := by
  simp only [Memory.wf, Bool.and_eq_true, decide_eq_true_eq, load_length] at *
  omega

theorem reset_memory_wf : State.reset.cfg.prog.wf = true := by decide

end Sys2Proof.Laws
end

