-- ==== Sys2Proof/Laws/State.lean ====
section
/-! SUPPORT. What each named update of the state does to each field: one lemma per field per update. -/

namespace Sys2Proof.Laws

open Sys2Proof.Machine

/-! `writeReg` -/

@[simp] theorem writeReg_cfg (s : State) (r : Reg) (v : Word) : (s.writeReg r v).cfg = s.cfg := rfl
@[simp] theorem writeReg_line (s : State) (r : Reg) (v : Word) : (s.writeReg r v).line = s.line := rfl
@[simp] theorem writeReg_cnt (s : State) (r : Reg) (v : Word) : (s.writeReg r v).cnt = s.cnt := rfl
@[simp] theorem writeReg_run (s : State) (r : Reg) (v : Word) : (s.writeReg r v).run = s.run := rfl
@[simp] theorem writeReg_en (s : State) (r : Reg) (v : Word) : (s.writeReg r v).en = s.en := rfl
@[simp] theorem writeReg_pf (s : State) (r : Reg) (v : Word) : (s.writeReg r v).pf = s.pf := rfl
@[simp] theorem writeReg_dstate (s : State) (r : Reg) (v : Word) : (s.writeReg r v).dstate = s.dstate := rfl
@[simp] theorem writeReg_hact (s : State) (r : Reg) (v : Word) : (s.writeReg r v).hact = s.hact := rfl
@[simp] theorem writeReg_hlevel (s : State) (r : Reg) (v : Word) : (s.writeReg r v).hlevel = s.hlevel := rfl
@[simp] theorem writeReg_hcap (s : State) (r : Reg) (v : Word) : (s.writeReg r v).hcap = s.hcap := rfl
@[simp] theorem writeReg_rdy (s : State) (r : Reg) (v : Word) : (s.writeReg r v).rdy = s.rdy := rfl
@[simp] theorem writeReg_dur (s : State) (r : Reg) (v : Word) : (s.writeReg r v).dur = s.dur := rfl
@[simp] theorem writeReg_out (s : State) (r : Reg) (v : Word) : (s.writeReg r v).out = s.out := rfl
@[simp] theorem writeReg_pc (s : State) (r : Reg) (v : Word) : (s.writeReg r v).pc = s.pc := rfl
@[simp] theorem writeReg_regs (s : State) (r : Reg) (v : Word) : (s.writeReg r v).regs = s.regs.write r v := rfl
@[simp] theorem writeReg_fstop (s : State) (r : Reg) (v : Word) : (s.writeReg r v).fstop = s.fstop := rfl
@[simp] theorem writeReg_fault (s : State) (r : Reg) (v : Word) : (s.writeReg r v).fault = s.fault := rfl
@[simp] theorem writeReg_ovr (s : State) (r : Reg) (v : Word) : (s.writeReg r v).ovr = s.ovr := rfl
@[simp] theorem writeReg_hist (s : State) (r : Reg) (v : Word) : (s.writeReg r v).hist = s.hist := rfl
@[simp] theorem writeReg_schedule (s : State) (r : Reg) (v : Word) : (s.writeReg r v).schedule = s.schedule := rfl
@[simp] theorem writeReg_turns (s : State) (r : Reg) (v : Word) : (s.writeReg r v).turns = s.turns := rfl

/-! `emit` -/

@[simp] theorem emit_cfg (s : State) (e : Event) : (s.emit e).cfg = s.cfg := rfl
@[simp] theorem emit_line (s : State) (e : Event) : (s.emit e).line = s.line := rfl
@[simp] theorem emit_cnt (s : State) (e : Event) : (s.emit e).cnt = s.cnt := rfl
@[simp] theorem emit_run (s : State) (e : Event) : (s.emit e).run = s.run := rfl
@[simp] theorem emit_en (s : State) (e : Event) : (s.emit e).en = s.en := rfl
@[simp] theorem emit_pf (s : State) (e : Event) : (s.emit e).pf = s.pf := rfl
@[simp] theorem emit_dstate (s : State) (e : Event) : (s.emit e).dstate = s.dstate := rfl
@[simp] theorem emit_hact (s : State) (e : Event) : (s.emit e).hact = s.hact := rfl
@[simp] theorem emit_hlevel (s : State) (e : Event) : (s.emit e).hlevel = s.hlevel := rfl
@[simp] theorem emit_hcap (s : State) (e : Event) : (s.emit e).hcap = s.hcap := rfl
@[simp] theorem emit_rdy (s : State) (e : Event) : (s.emit e).rdy = s.rdy := rfl
@[simp] theorem emit_dur (s : State) (e : Event) : (s.emit e).dur = s.dur := rfl
@[simp] theorem emit_out (s : State) (e : Event) : (s.emit e).out = s.out := rfl
@[simp] theorem emit_pc (s : State) (e : Event) : (s.emit e).pc = s.pc := rfl
@[simp] theorem emit_regs (s : State) (e : Event) : (s.emit e).regs = s.regs := rfl
@[simp] theorem emit_fstop (s : State) (e : Event) : (s.emit e).fstop = s.fstop := rfl
@[simp] theorem emit_fault (s : State) (e : Event) : (s.emit e).fault = s.fault := rfl
@[simp] theorem emit_ovr (s : State) (e : Event) : (s.emit e).ovr = s.ovr := rfl
@[simp] theorem emit_hist (s : State) (e : Event) : (s.emit e).hist = s.hist ++ [e] := rfl
@[simp] theorem emit_schedule (s : State) (e : Event) : (s.emit e).schedule = s.schedule := rfl
@[simp] theorem emit_turns (s : State) (e : Event) : (s.emit e).turns = s.turns := rfl

/-! `setPc` -/

@[simp] theorem setPc_cfg (s : State) (t : Nat) : (s.setPc t).cfg = s.cfg := rfl
@[simp] theorem setPc_line (s : State) (t : Nat) : (s.setPc t).line = s.line := rfl
@[simp] theorem setPc_cnt (s : State) (t : Nat) : (s.setPc t).cnt = s.cnt := rfl
@[simp] theorem setPc_run (s : State) (t : Nat) : (s.setPc t).run = s.run := rfl
@[simp] theorem setPc_en (s : State) (t : Nat) : (s.setPc t).en = s.en := rfl
@[simp] theorem setPc_pf (s : State) (t : Nat) : (s.setPc t).pf = s.pf := rfl
@[simp] theorem setPc_dstate (s : State) (t : Nat) : (s.setPc t).dstate = s.dstate := rfl
@[simp] theorem setPc_hact (s : State) (t : Nat) : (s.setPc t).hact = s.hact := rfl
@[simp] theorem setPc_hlevel (s : State) (t : Nat) : (s.setPc t).hlevel = s.hlevel := rfl
@[simp] theorem setPc_hcap (s : State) (t : Nat) : (s.setPc t).hcap = s.hcap := rfl
@[simp] theorem setPc_rdy (s : State) (t : Nat) : (s.setPc t).rdy = s.rdy := rfl
@[simp] theorem setPc_dur (s : State) (t : Nat) : (s.setPc t).dur = s.dur := rfl
@[simp] theorem setPc_out (s : State) (t : Nat) : (s.setPc t).out = s.out := rfl
@[simp] theorem setPc_pc (s : State) (t : Nat) : (s.setPc t).pc = t := rfl
@[simp] theorem setPc_regs (s : State) (t : Nat) : (s.setPc t).regs = s.regs := rfl
@[simp] theorem setPc_fstop (s : State) (t : Nat) : (s.setPc t).fstop = s.fstop := rfl
@[simp] theorem setPc_fault (s : State) (t : Nat) : (s.setPc t).fault = s.fault := rfl
@[simp] theorem setPc_ovr (s : State) (t : Nat) : (s.setPc t).ovr = s.ovr := rfl
@[simp] theorem setPc_hist (s : State) (t : Nat) : (s.setPc t).hist = s.hist := rfl
@[simp] theorem setPc_schedule (s : State) (t : Nat) : (s.setPc t).schedule = s.schedule := rfl
@[simp] theorem setPc_turns (s : State) (t : Nat) : (s.setPc t).turns = s.turns := rfl

/-! `advance` -/

@[simp] theorem advance_cfg (s : State) : (s.advance).cfg = s.cfg := rfl
@[simp] theorem advance_line (s : State) : (s.advance).line = s.line := rfl
@[simp] theorem advance_cnt (s : State) : (s.advance).cnt = s.cnt := rfl
@[simp] theorem advance_run (s : State) : (s.advance).run = s.run := rfl
@[simp] theorem advance_en (s : State) : (s.advance).en = s.en := rfl
@[simp] theorem advance_pf (s : State) : (s.advance).pf = s.pf := rfl
@[simp] theorem advance_dstate (s : State) : (s.advance).dstate = s.dstate := rfl
@[simp] theorem advance_hact (s : State) : (s.advance).hact = s.hact := rfl
@[simp] theorem advance_hlevel (s : State) : (s.advance).hlevel = s.hlevel := rfl
@[simp] theorem advance_hcap (s : State) : (s.advance).hcap = s.hcap := rfl
@[simp] theorem advance_rdy (s : State) : (s.advance).rdy = s.rdy := rfl
@[simp] theorem advance_dur (s : State) : (s.advance).dur = s.dur := rfl
@[simp] theorem advance_out (s : State) : (s.advance).out = s.out := rfl
@[simp] theorem advance_pc (s : State) : (s.advance).pc = s.pc + 1 := rfl
@[simp] theorem advance_regs (s : State) : (s.advance).regs = s.regs := rfl
@[simp] theorem advance_fstop (s : State) : (s.advance).fstop = s.fstop := rfl
@[simp] theorem advance_fault (s : State) : (s.advance).fault = s.fault := rfl
@[simp] theorem advance_ovr (s : State) : (s.advance).ovr = s.ovr := rfl
@[simp] theorem advance_hist (s : State) : (s.advance).hist = s.hist := rfl
@[simp] theorem advance_schedule (s : State) : (s.advance).schedule = s.schedule := rfl
@[simp] theorem advance_turns (s : State) : (s.advance).turns = s.turns := rfl

/-! `raise` -/

@[simp] theorem raise_cfg (s : State) (r : FaultReason) : (s.raise r).cfg = s.cfg := rfl
@[simp] theorem raise_line (s : State) (r : FaultReason) : (s.raise r).line = s.line := rfl
@[simp] theorem raise_cnt (s : State) (r : FaultReason) : (s.raise r).cnt = s.cnt := rfl
@[simp] theorem raise_run (s : State) (r : FaultReason) : (s.raise r).run = s.run := rfl
@[simp] theorem raise_en (s : State) (r : FaultReason) : (s.raise r).en = s.en := rfl
@[simp] theorem raise_pf (s : State) (r : FaultReason) : (s.raise r).pf = s.pf := rfl
@[simp] theorem raise_dstate (s : State) (r : FaultReason) : (s.raise r).dstate = s.dstate := rfl
@[simp] theorem raise_hact (s : State) (r : FaultReason) : (s.raise r).hact = s.hact := rfl
@[simp] theorem raise_hlevel (s : State) (r : FaultReason) : (s.raise r).hlevel = s.hlevel := rfl
@[simp] theorem raise_hcap (s : State) (r : FaultReason) : (s.raise r).hcap = s.hcap := rfl
@[simp] theorem raise_rdy (s : State) (r : FaultReason) : (s.raise r).rdy = s.rdy := rfl
@[simp] theorem raise_dur (s : State) (r : FaultReason) : (s.raise r).dur = s.dur := rfl
@[simp] theorem raise_out (s : State) (r : FaultReason) : (s.raise r).out = s.out := rfl
@[simp] theorem raise_pc (s : State) (r : FaultReason) : (s.raise r).pc = s.pc := rfl
@[simp] theorem raise_regs (s : State) (r : FaultReason) : (s.raise r).regs = s.regs := rfl
@[simp] theorem raise_fstop (s : State) (r : FaultReason) : (s.raise r).fstop = s.fstop := rfl
@[simp] theorem raise_fault (s : State) (r : FaultReason) : (s.raise r).fault = some ⟨r, s.pc⟩ := rfl
@[simp] theorem raise_ovr (s : State) (r : FaultReason) : (s.raise r).ovr = s.ovr := rfl
@[simp] theorem raise_hist (s : State) (r : FaultReason) : (s.raise r).hist = s.hist ++ [.fault r] := rfl
@[simp] theorem raise_schedule (s : State) (r : FaultReason) : (s.raise r).schedule = s.schedule := rfl
@[simp] theorem raise_turns (s : State) (r : FaultReason) : (s.raise r).turns = s.turns := rfl

/-! `enterHandler` -/

@[simp] theorem enterHandler_cfg (s : State) : (s.enterHandler).cfg = s.cfg := rfl
@[simp] theorem enterHandler_line (s : State) : (s.enterHandler).line = s.line := rfl
@[simp] theorem enterHandler_cnt (s : State) : (s.enterHandler).cnt = s.cnt := rfl
@[simp] theorem enterHandler_run (s : State) : (s.enterHandler).run = s.run := rfl
@[simp] theorem enterHandler_en (s : State) : (s.enterHandler).en = s.en := rfl
@[simp] theorem enterHandler_pf (s : State) : (s.enterHandler).pf = false := rfl
@[simp] theorem enterHandler_dstate (s : State) : (s.enterHandler).dstate = s.dstate := rfl
@[simp] theorem enterHandler_hact (s : State) : (s.enterHandler).hact = true := rfl
@[simp] theorem enterHandler_hlevel (s : State) : (s.enterHandler).hlevel = s.hlevel := rfl
@[simp] theorem enterHandler_hcap (s : State) : (s.enterHandler).hcap = s.hcap := rfl
@[simp] theorem enterHandler_rdy (s : State) : (s.enterHandler).rdy = s.rdy := rfl
@[simp] theorem enterHandler_dur (s : State) : (s.enterHandler).dur = s.dur := rfl
@[simp] theorem enterHandler_out (s : State) : (s.enterHandler).out = s.out := rfl
@[simp] theorem enterHandler_pc (s : State) : (s.enterHandler).pc = s.pc := rfl
@[simp] theorem enterHandler_regs (s : State) : (s.enterHandler).regs = s.regs := rfl
@[simp] theorem enterHandler_fstop (s : State) : (s.enterHandler).fstop = s.fstop := rfl
@[simp] theorem enterHandler_fault (s : State) : (s.enterHandler).fault = s.fault := rfl
@[simp] theorem enterHandler_ovr (s : State) : (s.enterHandler).ovr = s.ovr := rfl
@[simp] theorem enterHandler_hist (s : State) : (s.enterHandler).hist = s.hist ++ [.entry] := rfl
@[simp] theorem enterHandler_schedule (s : State) : (s.enterHandler).schedule = s.schedule := rfl
@[simp] theorem enterHandler_turns (s : State) : (s.enterHandler).turns = s.turns := rfl

/-! `leaveHandler` -/

@[simp] theorem leaveHandler_cfg (s : State) : (s.leaveHandler).cfg = s.cfg := rfl
@[simp] theorem leaveHandler_line (s : State) : (s.leaveHandler).line = s.line := rfl
@[simp] theorem leaveHandler_cnt (s : State) : (s.leaveHandler).cnt = s.cnt := rfl
@[simp] theorem leaveHandler_run (s : State) : (s.leaveHandler).run = s.run := rfl
@[simp] theorem leaveHandler_en (s : State) : (s.leaveHandler).en = s.en := rfl
@[simp] theorem leaveHandler_pf (s : State) : (s.leaveHandler).pf = s.pf := rfl
@[simp] theorem leaveHandler_dstate (s : State) : (s.leaveHandler).dstate = s.dstate := rfl
@[simp] theorem leaveHandler_hact (s : State) : (s.leaveHandler).hact = false := rfl
@[simp] theorem leaveHandler_hlevel (s : State) : (s.leaveHandler).hlevel = s.hlevel := rfl
@[simp] theorem leaveHandler_hcap (s : State) : (s.leaveHandler).hcap = s.hcap := rfl
@[simp] theorem leaveHandler_rdy (s : State) : (s.leaveHandler).rdy = s.rdy := rfl
@[simp] theorem leaveHandler_dur (s : State) : (s.leaveHandler).dur = s.dur := rfl
@[simp] theorem leaveHandler_out (s : State) : (s.leaveHandler).out = s.out := rfl
@[simp] theorem leaveHandler_pc (s : State) : (s.leaveHandler).pc = s.pc := rfl
@[simp] theorem leaveHandler_regs (s : State) : (s.leaveHandler).regs = s.regs := rfl
@[simp] theorem leaveHandler_fstop (s : State) : (s.leaveHandler).fstop = s.fstop := rfl
@[simp] theorem leaveHandler_fault (s : State) : (s.leaveHandler).fault = s.fault := rfl
@[simp] theorem leaveHandler_ovr (s : State) : (s.leaveHandler).ovr = s.ovr := rfl
@[simp] theorem leaveHandler_hist (s : State) : (s.leaveHandler).hist = s.hist := rfl
@[simp] theorem leaveHandler_schedule (s : State) : (s.leaveHandler).schedule = s.schedule := rfl
@[simp] theorem leaveHandler_turns (s : State) : (s.leaveHandler).turns = s.turns := rfl

/-! `setRun` -/

@[simp] theorem setRun_cfg (s : State) (b : Bool) : (s.setRun b).cfg = s.cfg := rfl
@[simp] theorem setRun_line (s : State) (b : Bool) : (s.setRun b).line = s.line := rfl
@[simp] theorem setRun_cnt (s : State) (b : Bool) : (s.setRun b).cnt = s.cnt := rfl
@[simp] theorem setRun_run (s : State) (b : Bool) : (s.setRun b).run = b := rfl
@[simp] theorem setRun_en (s : State) (b : Bool) : (s.setRun b).en = s.en := rfl
@[simp] theorem setRun_pf (s : State) (b : Bool) : (s.setRun b).pf = s.pf := rfl
@[simp] theorem setRun_dstate (s : State) (b : Bool) : (s.setRun b).dstate = s.dstate := rfl
@[simp] theorem setRun_hact (s : State) (b : Bool) : (s.setRun b).hact = s.hact := rfl
@[simp] theorem setRun_hlevel (s : State) (b : Bool) : (s.setRun b).hlevel = s.hlevel := rfl
@[simp] theorem setRun_hcap (s : State) (b : Bool) : (s.setRun b).hcap = s.hcap := rfl
@[simp] theorem setRun_rdy (s : State) (b : Bool) : (s.setRun b).rdy = s.rdy := rfl
@[simp] theorem setRun_dur (s : State) (b : Bool) : (s.setRun b).dur = s.dur := rfl
@[simp] theorem setRun_out (s : State) (b : Bool) : (s.setRun b).out = s.out := rfl
@[simp] theorem setRun_pc (s : State) (b : Bool) : (s.setRun b).pc = s.pc := rfl
@[simp] theorem setRun_regs (s : State) (b : Bool) : (s.setRun b).regs = s.regs := rfl
@[simp] theorem setRun_fstop (s : State) (b : Bool) : (s.setRun b).fstop = s.fstop := rfl
@[simp] theorem setRun_fault (s : State) (b : Bool) : (s.setRun b).fault = s.fault := rfl
@[simp] theorem setRun_ovr (s : State) (b : Bool) : (s.setRun b).ovr = s.ovr := rfl
@[simp] theorem setRun_hist (s : State) (b : Bool) : (s.setRun b).hist = s.hist := rfl
@[simp] theorem setRun_schedule (s : State) (b : Bool) : (s.setRun b).schedule = s.schedule := rfl
@[simp] theorem setRun_turns (s : State) (b : Bool) : (s.setRun b).turns = s.turns := rfl

/-! `setEn` -/

@[simp] theorem setEn_cfg (s : State) (b : Bool) : (s.setEn b).cfg = s.cfg := rfl
@[simp] theorem setEn_line (s : State) (b : Bool) : (s.setEn b).line = s.line := rfl
@[simp] theorem setEn_cnt (s : State) (b : Bool) : (s.setEn b).cnt = s.cnt := rfl
@[simp] theorem setEn_run (s : State) (b : Bool) : (s.setEn b).run = s.run := rfl
@[simp] theorem setEn_en (s : State) (b : Bool) : (s.setEn b).en = b := rfl
@[simp] theorem setEn_pf (s : State) (b : Bool) : (s.setEn b).pf = s.pf := rfl
@[simp] theorem setEn_dstate (s : State) (b : Bool) : (s.setEn b).dstate = s.dstate := rfl
@[simp] theorem setEn_hact (s : State) (b : Bool) : (s.setEn b).hact = s.hact := rfl
@[simp] theorem setEn_hlevel (s : State) (b : Bool) : (s.setEn b).hlevel = s.hlevel := rfl
@[simp] theorem setEn_hcap (s : State) (b : Bool) : (s.setEn b).hcap = s.hcap := rfl
@[simp] theorem setEn_rdy (s : State) (b : Bool) : (s.setEn b).rdy = s.rdy := rfl
@[simp] theorem setEn_dur (s : State) (b : Bool) : (s.setEn b).dur = s.dur := rfl
@[simp] theorem setEn_out (s : State) (b : Bool) : (s.setEn b).out = s.out := rfl
@[simp] theorem setEn_pc (s : State) (b : Bool) : (s.setEn b).pc = s.pc := rfl
@[simp] theorem setEn_regs (s : State) (b : Bool) : (s.setEn b).regs = s.regs := rfl
@[simp] theorem setEn_fstop (s : State) (b : Bool) : (s.setEn b).fstop = s.fstop := rfl
@[simp] theorem setEn_fault (s : State) (b : Bool) : (s.setEn b).fault = s.fault := rfl
@[simp] theorem setEn_ovr (s : State) (b : Bool) : (s.setEn b).ovr = s.ovr := rfl
@[simp] theorem setEn_hist (s : State) (b : Bool) : (s.setEn b).hist = s.hist := rfl
@[simp] theorem setEn_schedule (s : State) (b : Bool) : (s.setEn b).schedule = s.schedule := rfl
@[simp] theorem setEn_turns (s : State) (b : Bool) : (s.setEn b).turns = s.turns := rfl

/-! `setPf` -/

@[simp] theorem setPf_cfg (s : State) (b : Bool) : (s.setPf b).cfg = s.cfg := rfl
@[simp] theorem setPf_line (s : State) (b : Bool) : (s.setPf b).line = s.line := rfl
@[simp] theorem setPf_cnt (s : State) (b : Bool) : (s.setPf b).cnt = s.cnt := rfl
@[simp] theorem setPf_run (s : State) (b : Bool) : (s.setPf b).run = s.run := rfl
@[simp] theorem setPf_en (s : State) (b : Bool) : (s.setPf b).en = s.en := rfl
@[simp] theorem setPf_pf (s : State) (b : Bool) : (s.setPf b).pf = b := rfl
@[simp] theorem setPf_dstate (s : State) (b : Bool) : (s.setPf b).dstate = s.dstate := rfl
@[simp] theorem setPf_hact (s : State) (b : Bool) : (s.setPf b).hact = s.hact := rfl
@[simp] theorem setPf_hlevel (s : State) (b : Bool) : (s.setPf b).hlevel = s.hlevel := rfl
@[simp] theorem setPf_hcap (s : State) (b : Bool) : (s.setPf b).hcap = s.hcap := rfl
@[simp] theorem setPf_rdy (s : State) (b : Bool) : (s.setPf b).rdy = s.rdy := rfl
@[simp] theorem setPf_dur (s : State) (b : Bool) : (s.setPf b).dur = s.dur := rfl
@[simp] theorem setPf_out (s : State) (b : Bool) : (s.setPf b).out = s.out := rfl
@[simp] theorem setPf_pc (s : State) (b : Bool) : (s.setPf b).pc = s.pc := rfl
@[simp] theorem setPf_regs (s : State) (b : Bool) : (s.setPf b).regs = s.regs := rfl
@[simp] theorem setPf_fstop (s : State) (b : Bool) : (s.setPf b).fstop = s.fstop := rfl
@[simp] theorem setPf_fault (s : State) (b : Bool) : (s.setPf b).fault = s.fault := rfl
@[simp] theorem setPf_ovr (s : State) (b : Bool) : (s.setPf b).ovr = s.ovr := rfl
@[simp] theorem setPf_hist (s : State) (b : Bool) : (s.setPf b).hist = s.hist := rfl
@[simp] theorem setPf_schedule (s : State) (b : Bool) : (s.setPf b).schedule = s.schedule := rfl
@[simp] theorem setPf_turns (s : State) (b : Bool) : (s.setPf b).turns = s.turns := rfl

/-! `setRdy` -/

@[simp] theorem setRdy_cfg (s : State) (b : Bool) : (s.setRdy b).cfg = s.cfg := rfl
@[simp] theorem setRdy_line (s : State) (b : Bool) : (s.setRdy b).line = s.line := rfl
@[simp] theorem setRdy_cnt (s : State) (b : Bool) : (s.setRdy b).cnt = s.cnt := rfl
@[simp] theorem setRdy_run (s : State) (b : Bool) : (s.setRdy b).run = s.run := rfl
@[simp] theorem setRdy_en (s : State) (b : Bool) : (s.setRdy b).en = s.en := rfl
@[simp] theorem setRdy_pf (s : State) (b : Bool) : (s.setRdy b).pf = s.pf := rfl
@[simp] theorem setRdy_dstate (s : State) (b : Bool) : (s.setRdy b).dstate = s.dstate := rfl
@[simp] theorem setRdy_hact (s : State) (b : Bool) : (s.setRdy b).hact = s.hact := rfl
@[simp] theorem setRdy_hlevel (s : State) (b : Bool) : (s.setRdy b).hlevel = s.hlevel := rfl
@[simp] theorem setRdy_hcap (s : State) (b : Bool) : (s.setRdy b).hcap = s.hcap := rfl
@[simp] theorem setRdy_rdy (s : State) (b : Bool) : (s.setRdy b).rdy = b := rfl
@[simp] theorem setRdy_dur (s : State) (b : Bool) : (s.setRdy b).dur = s.dur := rfl
@[simp] theorem setRdy_out (s : State) (b : Bool) : (s.setRdy b).out = s.out := rfl
@[simp] theorem setRdy_pc (s : State) (b : Bool) : (s.setRdy b).pc = s.pc := rfl
@[simp] theorem setRdy_regs (s : State) (b : Bool) : (s.setRdy b).regs = s.regs := rfl
@[simp] theorem setRdy_fstop (s : State) (b : Bool) : (s.setRdy b).fstop = s.fstop := rfl
@[simp] theorem setRdy_fault (s : State) (b : Bool) : (s.setRdy b).fault = s.fault := rfl
@[simp] theorem setRdy_ovr (s : State) (b : Bool) : (s.setRdy b).ovr = s.ovr := rfl
@[simp] theorem setRdy_hist (s : State) (b : Bool) : (s.setRdy b).hist = s.hist := rfl
@[simp] theorem setRdy_schedule (s : State) (b : Bool) : (s.setRdy b).schedule = s.schedule := rfl
@[simp] theorem setRdy_turns (s : State) (b : Bool) : (s.setRdy b).turns = s.turns := rfl

/-! `setFstop` -/

@[simp] theorem setFstop_cfg (s : State) (b : Bool) : (s.setFstop b).cfg = s.cfg := rfl
@[simp] theorem setFstop_line (s : State) (b : Bool) : (s.setFstop b).line = s.line := rfl
@[simp] theorem setFstop_cnt (s : State) (b : Bool) : (s.setFstop b).cnt = s.cnt := rfl
@[simp] theorem setFstop_run (s : State) (b : Bool) : (s.setFstop b).run = s.run := rfl
@[simp] theorem setFstop_en (s : State) (b : Bool) : (s.setFstop b).en = s.en := rfl
@[simp] theorem setFstop_pf (s : State) (b : Bool) : (s.setFstop b).pf = s.pf := rfl
@[simp] theorem setFstop_dstate (s : State) (b : Bool) : (s.setFstop b).dstate = s.dstate := rfl
@[simp] theorem setFstop_hact (s : State) (b : Bool) : (s.setFstop b).hact = s.hact := rfl
@[simp] theorem setFstop_hlevel (s : State) (b : Bool) : (s.setFstop b).hlevel = s.hlevel := rfl
@[simp] theorem setFstop_hcap (s : State) (b : Bool) : (s.setFstop b).hcap = s.hcap := rfl
@[simp] theorem setFstop_rdy (s : State) (b : Bool) : (s.setFstop b).rdy = s.rdy := rfl
@[simp] theorem setFstop_dur (s : State) (b : Bool) : (s.setFstop b).dur = s.dur := rfl
@[simp] theorem setFstop_out (s : State) (b : Bool) : (s.setFstop b).out = s.out := rfl
@[simp] theorem setFstop_pc (s : State) (b : Bool) : (s.setFstop b).pc = s.pc := rfl
@[simp] theorem setFstop_regs (s : State) (b : Bool) : (s.setFstop b).regs = s.regs := rfl
@[simp] theorem setFstop_fstop (s : State) (b : Bool) : (s.setFstop b).fstop = b := rfl
@[simp] theorem setFstop_fault (s : State) (b : Bool) : (s.setFstop b).fault = s.fault := rfl
@[simp] theorem setFstop_ovr (s : State) (b : Bool) : (s.setFstop b).ovr = s.ovr := rfl
@[simp] theorem setFstop_hist (s : State) (b : Bool) : (s.setFstop b).hist = s.hist := rfl
@[simp] theorem setFstop_schedule (s : State) (b : Bool) : (s.setFstop b).schedule = s.schedule := rfl
@[simp] theorem setFstop_turns (s : State) (b : Bool) : (s.setFstop b).turns = s.turns := rfl

/-! `setOut` -/

@[simp] theorem setOut_cfg (s : State) (b : Bool) : (s.setOut b).cfg = s.cfg := rfl
@[simp] theorem setOut_line (s : State) (b : Bool) : (s.setOut b).line = s.line := rfl
@[simp] theorem setOut_cnt (s : State) (b : Bool) : (s.setOut b).cnt = s.cnt := rfl
@[simp] theorem setOut_run (s : State) (b : Bool) : (s.setOut b).run = s.run := rfl
@[simp] theorem setOut_en (s : State) (b : Bool) : (s.setOut b).en = s.en := rfl
@[simp] theorem setOut_pf (s : State) (b : Bool) : (s.setOut b).pf = s.pf := rfl
@[simp] theorem setOut_dstate (s : State) (b : Bool) : (s.setOut b).dstate = s.dstate := rfl
@[simp] theorem setOut_hact (s : State) (b : Bool) : (s.setOut b).hact = s.hact := rfl
@[simp] theorem setOut_hlevel (s : State) (b : Bool) : (s.setOut b).hlevel = s.hlevel := rfl
@[simp] theorem setOut_hcap (s : State) (b : Bool) : (s.setOut b).hcap = s.hcap := rfl
@[simp] theorem setOut_rdy (s : State) (b : Bool) : (s.setOut b).rdy = s.rdy := rfl
@[simp] theorem setOut_dur (s : State) (b : Bool) : (s.setOut b).dur = s.dur := rfl
@[simp] theorem setOut_out (s : State) (b : Bool) : (s.setOut b).out = b := rfl
@[simp] theorem setOut_pc (s : State) (b : Bool) : (s.setOut b).pc = s.pc := rfl
@[simp] theorem setOut_regs (s : State) (b : Bool) : (s.setOut b).regs = s.regs := rfl
@[simp] theorem setOut_fstop (s : State) (b : Bool) : (s.setOut b).fstop = s.fstop := rfl
@[simp] theorem setOut_fault (s : State) (b : Bool) : (s.setOut b).fault = s.fault := rfl
@[simp] theorem setOut_ovr (s : State) (b : Bool) : (s.setOut b).ovr = s.ovr := rfl
@[simp] theorem setOut_hist (s : State) (b : Bool) : (s.setOut b).hist = s.hist := rfl
@[simp] theorem setOut_schedule (s : State) (b : Bool) : (s.setOut b).schedule = s.schedule := rfl
@[simp] theorem setOut_turns (s : State) (b : Bool) : (s.setOut b).turns = s.turns := rfl

/-! `setDstate` -/

@[simp] theorem setDstate_cfg (s : State) (d : DecoderState) : (s.setDstate d).cfg = s.cfg := rfl
@[simp] theorem setDstate_line (s : State) (d : DecoderState) : (s.setDstate d).line = s.line := rfl
@[simp] theorem setDstate_cnt (s : State) (d : DecoderState) : (s.setDstate d).cnt = s.cnt := rfl
@[simp] theorem setDstate_run (s : State) (d : DecoderState) : (s.setDstate d).run = s.run := rfl
@[simp] theorem setDstate_en (s : State) (d : DecoderState) : (s.setDstate d).en = s.en := rfl
@[simp] theorem setDstate_pf (s : State) (d : DecoderState) : (s.setDstate d).pf = s.pf := rfl
@[simp] theorem setDstate_dstate (s : State) (d : DecoderState) : (s.setDstate d).dstate = d := rfl
@[simp] theorem setDstate_hact (s : State) (d : DecoderState) : (s.setDstate d).hact = s.hact := rfl
@[simp] theorem setDstate_hlevel (s : State) (d : DecoderState) : (s.setDstate d).hlevel = s.hlevel := rfl
@[simp] theorem setDstate_hcap (s : State) (d : DecoderState) : (s.setDstate d).hcap = s.hcap := rfl
@[simp] theorem setDstate_rdy (s : State) (d : DecoderState) : (s.setDstate d).rdy = s.rdy := rfl
@[simp] theorem setDstate_dur (s : State) (d : DecoderState) : (s.setDstate d).dur = s.dur := rfl
@[simp] theorem setDstate_out (s : State) (d : DecoderState) : (s.setDstate d).out = s.out := rfl
@[simp] theorem setDstate_pc (s : State) (d : DecoderState) : (s.setDstate d).pc = s.pc := rfl
@[simp] theorem setDstate_regs (s : State) (d : DecoderState) : (s.setDstate d).regs = s.regs := rfl
@[simp] theorem setDstate_fstop (s : State) (d : DecoderState) : (s.setDstate d).fstop = s.fstop := rfl
@[simp] theorem setDstate_fault (s : State) (d : DecoderState) : (s.setDstate d).fault = s.fault := rfl
@[simp] theorem setDstate_ovr (s : State) (d : DecoderState) : (s.setDstate d).ovr = s.ovr := rfl
@[simp] theorem setDstate_hist (s : State) (d : DecoderState) : (s.setDstate d).hist = s.hist := rfl
@[simp] theorem setDstate_schedule (s : State) (d : DecoderState) : (s.setDstate d).schedule = s.schedule := rfl
@[simp] theorem setDstate_turns (s : State) (d : DecoderState) : (s.setDstate d).turns = s.turns := rfl

end Sys2Proof.Laws
end

