-- ==== Sys2Proof/Laws/Ops.lean ====
section
/-! SUPPORT. One lemma for each shared operation, saying everything it can do, and the inversion of a step: later proofs
cite these instead of unfolding the operations. -/

namespace Sys2Proof.Laws

open Sys2Proof.Machine

/-! ### Registers -/

@[simp] theorem read_write_self (f : RegFile) (r : Reg) (v : Word) : (f.write r v).read r = some v := by
  cases r <;> rfl

theorem read_write_other (f : RegFile) {r q : Reg} (v : Word) (h : q ≠ r) : (f.write r v).read q = f.read q := by
  cases r <;> cases q <;> first | rfl | exact absurd rfl h

/-- A write never unwrites a register. -/
theorem read_write_written (f : RegFile) (r q : Reg) (v : Word) (h : f.read q ≠ none) : (f.write r v).read q ≠ none := by
  by_cases hq : q = r
  · subst hq; simp
  · rwa [read_write_other f v hq]

@[simp] theorem read_unwritten (r : Reg) : RegFile.unwritten.read r = none := by cases r <;> rfl

/-! ### Answers -/

@[simp] theorem trap_next (r : FaultReason) (s t : State) : trap r s = .next t ↔ t = s.raise r := by
  simp [trap, eq_comm]

@[simp] theorem complete_next (s t : State) : complete s = .next t ↔ t = s.advance := by
  simp [complete, eq_comm]

/-- A handler-only operation has its effect in the handler and raises F_CONTEXT in the foreground. -/
theorem handlerOnly_next {i : Instr} {f : State → State} {s t : State} (h : handlerOnly i f s = .next t) :
    (s.hact = true ∧ t = f s) ∨ (s.hact = false ∧ t = s.raise (.context (encode i))) := by
  unfold handlerOnly at h
  split at h
  · exact .inl ⟨‹_›, by simpa [eq_comm] using h⟩
  · exact .inr ⟨Bool.not_eq_true _ ▸ ‹_›, by simpa using h⟩

/-- An operation with a source register faults on an unwritten one and goes on with the value of a written one. -/
theorem withSource_next {r : Reg} {s t : State} {k : Word → Result} (h : withSource r s k = .next t) :
    (s.regs.read r = none ∧ t = s.raise (.unwrittenReg r)) ∨ ∃ v, s.regs.read r = some v ∧ k v = .next t := by
  unfold withSource at h
  split at h
  · exact .inl ⟨‹_›, by simpa using h⟩
  · exact .inr ⟨_, ‹_›, h⟩

/-- A branch goes to its target inside the program and raises F_FETCH outside it. -/
theorem branchTo_next {z : Int} {s t : State} (h : branchTo z s = .next t) :
    ((z < 0 ∨ (s.cfg.plen : Int) ≤ z) ∧ t = s.raise (.fetch z)) ∨
      (0 ≤ z ∧ z < (s.cfg.plen : Int) ∧ t = s.setPc z.toNat) := by
  unfold branchTo at h
  split at h
  · exact .inl ⟨‹_›, by simpa using h⟩
  · refine .inr ⟨by omega, by omega, by simpa [eq_comm] using h⟩

/-! ### The steps -/

/-- The foreground's step is a fault at fetch, a fault at decode, or the operation at the pc. -/
theorem foregroundStep_next {s t : State} (h : foregroundStep s = .next t) :
    (fetchWord s.cfg.prog s.pc = none ∧ t = s.raise (.fetch s.pc)) ∨
    (∃ w e, fetchWord s.cfg.prog s.pc = some w ∧ decodeWord w = .error e ∧ t = s.raise (.illegal w)) ∨
    (∃ w i, fetchWord s.cfg.prog s.pc = some w ∧ decodeWord w = .ok i ∧ exec i s = .next t) := by
  unfold foregroundStep at h
  split at h
  · exact .inl ⟨‹_›, by simpa using h⟩
  · split at h
    · exact .inr (.inl ⟨_, _, ‹_›, ‹_›, by simpa using h⟩)
    · exact .inr (.inr ⟨_, _, ‹_›, ‹_›, h⟩)

/-- A step that answers a next state is a step that was enabled, taken by the agent whose turn it is, under a well-formed
configuration and with no fault recorded. -/
theorem step_next {s t : State} (h : step s = .next t) :
    s.cfg.wf = true ∧ s.fault = none ∧ enabled s (nextTurn s) = true ∧ perform (nextTurn s) (takeTurn s) = .next t := by
  unfold step at h
  split at h
  · split at h
    · cases h
    · split at h
      · exact ⟨‹_›, ‹_›, ‹_›, h⟩
      · cases h
  · cases h

/-- Using up a turn changes the schedule and its counter only. -/
theorem takeTurn_eq (s : State) : ∃ l n, takeTurn s = { s with schedule := l, turns := n } := by
  unfold takeTurn
  split <;> exact ⟨_, _, rfl⟩

/-- The foreground has a step only outside the handler. -/
theorem foreground_enabled {s : State} (h : enabled s .foreground = true) :
    s.fault = none ∧ s.hact = false ∧ s.fstop = false := by
  simpa [enabled, and_assoc] using h

/-! ### Ticks -/

@[simp] theorem tick_fault (s : State) : (tick s).fault = s.fault := by unfold tick; split <;> rfl

@[simp] theorem tick_cfg (s : State) : (tick s).cfg = s.cfg := by unfold tick; split <;> rfl

@[simp] theorem tick_en (s : State) : (tick s).en = s.en := by unfold tick; split <;> rfl

@[simp] theorem tick_hact (s : State) : (tick s).hact = s.hact := by unfold tick; split <;> rfl

@[simp] theorem tick_fstop (s : State) : (tick s).fstop = s.fstop := by unfold tick; split <;> rfl

theorem ticks_succ (n : Nat) (s : State) : ticks (n + 1) s = tick (ticks n s) := by
  induction n generalizing s with
  | zero => rfl
  | succ n ih => exact ih (tick s)

theorem ticks_frame (n : Nat) (s : State) :
    (ticks n s).fault = s.fault ∧ (ticks n s).cfg = s.cfg ∧ (ticks n s).en = s.en ∧ (ticks n s).hact = s.hact ∧
      (ticks n s).fstop = s.fstop := by
  induction n with
  | zero => exact ⟨rfl, rfl, rfl, rfl, rfl⟩
  | succ n ih => simp [ticks_succ, ih]

end Sys2Proof.Laws
end

