-- ==== Sys2Proof/Laws/PerInstr.lean ====
section
/-! SUPPORT. The family RowSelects, one lemma per constructor: the word of a well-formed instruction is selected by the row
of the opcode table that has its mnemonic (30_encoding.md R79). -/

namespace Sys2Proof.Laws.RowSelects

/-- The instruction's word is selected by the row of its mnemonic. -/
def Statement (i : Instr) : Prop :=
  i.wf = true → ∃ r ∈ opcodeTable, r.mnemonic = i.mnemonic ∧ encode i &&& r.mask = r.pattern

/-- The row at an index of the table answers for an instruction. -/
theorem of_row (i : Instr) (r : OpcodeRow) (hr : r ∈ opcodeTable) (hm : r.mnemonic = i.mnemonic)
    (h : encode i &&& r.mask = r.pattern) : Statement i := fun _ => ⟨r, hr, hm, h⟩

theorem tstart : Statement .tstart := of_row _ ⟨"TSTART", 0xFFFF, 0x0800⟩ (by decide) rfl (by decide)

theorem tstop : Statement .tstop := of_row _ ⟨"TSTOP", 0xFFFF, 0x1000⟩ (by decide) rfl (by decide)

theorem tread : Statement .tread := of_row _ ⟨"TREAD", 0xFFFF, 0x1800⟩ (by decide) rfl (by decide)

theorem treset : Statement .treset := of_row _ ⟨"TRESET", 0xFFFF, 0x2000⟩ (by decide) rfl (by decide)

theorem esample : Statement .esample := of_row _ ⟨"ESAMPLE", 0xFFFF, 0x2800⟩ (by decide) rfl (by decide)

theorem edisable : Statement .edisable := of_row _ ⟨"EDISABLE", 0xFFFF, 0x3000⟩ (by decide) rfl (by decide)

theorem eenable : Statement .eenable := of_row _ ⟨"EENABLE", 0xFFFF, 0x3800⟩ (by decide) rfl (by decide)

theorem eclrpend : Statement .eclrpend := of_row _ ⟨"ECLRPEND", 0xFFFF, 0x4000⟩ (by decide) rfl (by decide)

theorem rdyset : Statement .rdyset := of_row _ ⟨"RDYSET", 0xFFFF, 0x4800⟩ (by decide) rfl (by decide)

theorem rdyclr : Statement .rdyclr := of_row _ ⟨"RDYCLR", 0xFFFF, 0x5000⟩ (by decide) rfl (by decide)

theorem rdytst (rd : Reg) : Statement (.rdytst rd) :=
  of_row _ ⟨"RDYTST", 0xF9FF, 0x5800⟩ (by decide) rfl (by cases rd <;> decide)

theorem durwr : Statement .durwr := of_row _ ⟨"DURWR", 0xFFFF, 0x6000⟩ (by decide) rfl (by decide)

theorem durrd (rd : Reg) : Statement (.durrd rd) :=
  of_row _ ⟨"DURRD", 0xF9FF, 0x6800⟩ (by decide) rfl (by cases rd <;> decide)

theorem scale (rd rs : Reg) : Statement (.scale rd rs) :=
  of_row _ ⟨"SCALE", 0xF87F, 0x7000⟩ (by decide) rfl (by cases rd <;> cases rs <;> decide)

theorem cmpth (rd rs : Reg) : Statement (.cmpth rd rs) :=
  of_row _ ⟨"CMPTH", 0xF87F, 0x7800⟩ (by decide) rfl (by cases rd <;> cases rs <;> decide)

theorem outset (rs : Reg) : Statement (.outset rs) :=
  of_row _ ⟨"OUTSET", 0xFE7F, 0x8000⟩ (by decide) rfl (by cases rs <;> decide)

/-- The low byte of a format I or J word, nibble by nibble, is masked away, whatever it holds. -/
theorem low_byte_masked : ∀ (ra : Reg) (a b : Fin 16),
    (layOut 0x11 ra.number 0 (16 * a + b) &&& 0xF900 = 0x8800) ∧
      (layOut 0x12 ra.number 0 (16 * a + b) &&& 0xF900 = 0x9000) ∧
      (layOut 0x13 ra.number 0 (16 * a + b) &&& 0xF900 = 0x9800) ∧
      (layOut 0x14 0 0 (16 * a + b) &&& 0xFF00 = 0xA000) := by
  intro ra
  cases ra <;> decide

theorem byte_masked (ra : Reg) {n : Nat} (h : n < 256) :
    (layOut 0x11 ra.number 0 n &&& 0xF900 = 0x8800) ∧ (layOut 0x12 ra.number 0 n &&& 0xF900 = 0x9000) ∧
      (layOut 0x13 ra.number 0 n &&& 0xF900 = 0x9800) ∧ (layOut 0x14 0 0 n &&& 0xFF00 = 0xA000) := by
  have hn : 16 * (n / 16) + n % 16 = n := by omega
  have := low_byte_masked ra ⟨n / 16, by omega⟩ ⟨n % 16, by omega⟩
  simpa only [hn] using this

theorem byteField_lt (z : Int) : byteField z < 256 := by unfold byteField; omega

theorem ldi (rd : Reg) (imm : Nat) : Statement (.ldi rd imm) :=
  of_row _ ⟨"LDI", 0xF900, 0x8800⟩ (by decide) rfl (byte_masked rd (Nat.mod_lt _ (by decide))).1

theorem bz (ra : Reg) (off : Int) : Statement (.bz ra off) :=
  of_row _ ⟨"BZ", 0xF900, 0x9000⟩ (by decide) rfl (byte_masked ra (byteField_lt off)).2.1

theorem bnz (ra : Reg) (off : Int) : Statement (.bnz ra off) :=
  of_row _ ⟨"BNZ", 0xF900, 0x9800⟩ (by decide) rfl (byte_masked ra (byteField_lt off)).2.2.1

theorem jmp (off : Int) : Statement (.jmp off) :=
  of_row _ ⟨"JMP", 0xFF00, 0xA000⟩ (by decide) rfl (byte_masked .r0 (byteField_lt off)).2.2.2

theorem stop : Statement .stop := of_row _ ⟨"STOP", 0xFFFF, 0xA800⟩ (by decide) rfl (by decide)

end Sys2Proof.Laws.RowSelects
end

