-- ==== Sys2Proof/Machine/Assembler.lean ====
section
/-! DEFINITION. The assembler of 30_encoding.md R83 and R84 over parsed lines: labels, branch operands, pseudo-instructions
and the refusal of an operand that does not fit; and the written form of an operation. -/

namespace Sys2Proof.Machine

/-- A branch operand: a signed offset in words, or a label (R83). -/
inductive Target where
  | offset (off : Int)
  | label (name : String)
deriving DecidableEq, Repr

/-- What one line says: an operation, a branch whose operand may be a label, or a pseudo-instruction (R83, R84). -/
inductive Stmt where
  | op (i : Instr)
  | bz (ra : Reg) (t : Target)
  | bnz (ra : Reg) (t : Target)
  | jmp (t : Target)
  | nop
  | arm
  | poll (rd : Reg)
  | halt
  | b (t : Target)
deriving DecidableEq, Repr

/-- A line: the label it defines, if any, and its statement (R83). -/
structure Line where
  label : Option String
  stmt : Stmt
deriving DecidableEq, Repr

/-- Why the assembler refuses a line (R83): the operand does not fit, or the label is defined by no line or by two. -/
inductive AsmError where
  | outOfRange
  | unknownLabel
  | repeatedLabel
deriving DecidableEq, Repr

/-- How many words a statement assembles to (R84). -/
def Stmt.size : Stmt → Nat
  | .op _ => 1
  | .bz _ _ => 1
  | .bnz _ _ => 1
  | .jmp _ => 1
  | .nop => 1
  | .arm => 2
  | .poll _ => 2
  | .halt => 1
  | .b _ => 1

/-- The labels with the index of the line that defines each (R83), from index `at0` on. -/
def labelsFrom (at0 : Nat) : List Line → List (String × Nat)
  | [] => []
  | l :: rest =>
    match l.label with
    | some name => (name, at0) :: labelsFrom (at0 + l.stmt.size) rest
    | none => labelsFrom (at0 + l.stmt.size) rest

/-- The offset of a branch at index `pc`: a label L assembles to L - pc (R83). -/
def Target.resolve (labels : List (String × Nat)) (pc : Nat) : Target → Except AsmError Int
  | .offset off => .ok off
  | .label name =>
    match labels.filter (fun e => e.1 == name) with
    | [e] => .ok ((e.2 : Int) - (pc : Int))
    | [] => .error .unknownLabel
    | _ => .error .repeatedLabel

/-- The operations a statement at index `pc` stands for (R83, R84). -/
def Stmt.expand (labels : List (String × Nat)) (pc : Nat) : Stmt → Except AsmError (List Instr)
  | .op i => .ok [i]
  | .bz ra t => (t.resolve labels pc).map fun off => [.bz ra off]
  | .bnz ra t => (t.resolve labels pc).map fun off => [.bnz ra off]
  | .jmp t => (t.resolve labels pc).map fun off => [.jmp off]
  | .nop => .ok Pseudo.nop.expand
  | .arm => .ok Pseudo.arm.expand
  | .poll rd => .ok (Pseudo.poll rd).expand
  | .halt => .ok Pseudo.halt.expand
  | .b t => (t.resolve labels pc).map fun off => (Pseudo.b off).expand

/-- The words of the lines from index `at0` on. -/
def assembleFrom (labels : List (String × Nat)) (at0 : Nat) : List Line → Except AsmError Memory
  | [] => .ok []
  | l :: rest =>
    match l.stmt.expand labels at0 with
    | .error e => .error e
    | .ok is =>
      if is.all Instr.wf then
        match assembleFrom labels (at0 + l.stmt.size) rest with
        | .error e => .error e
        | .ok ws => .ok (is.map encode ++ ws)
      else .error .outOfRange

/-- The assembler (R83). -/
def assemble (lines : List Line) : Except AsmError Memory := assembleFrom (labelsFrom 0 lines) 0 lines

/-- A register as it is written (R83). -/
def regText : Reg → String
  | .r0 => "r0"
  | .r1 => "r1"
  | .r2 => "r2"
  | .r3 => "r3"

/-- A branch offset as it is written, with its sign (R83). -/
def offsetText (off : Int) : String := if 0 ≤ off then "+" ++ toString off else toString off

/-- An operation as it is written: the mnemonic, then the operands separated by commas (R83). -/
def asmText (i : Instr) : String :=
  match i with
  | .rdytst rd => i.mnemonic ++ " " ++ regText rd
  | .durrd rd => i.mnemonic ++ " " ++ regText rd
  | .scale rd rs => i.mnemonic ++ " " ++ regText rd ++ ", " ++ regText rs
  | .cmpth rd rs => i.mnemonic ++ " " ++ regText rd ++ ", " ++ regText rs
  | .outset rs => i.mnemonic ++ " " ++ regText rs
  | .ldi rd imm => i.mnemonic ++ " " ++ regText rd ++ ", " ++ toString imm
  | .bz ra off => i.mnemonic ++ " " ++ regText ra ++ ", " ++ offsetText off
  | .bnz ra off => i.mnemonic ++ " " ++ regText ra ++ ", " ++ offsetText off
  | .jmp off => i.mnemonic ++ " " ++ offsetText off
  | .tstart | .tstop | .tread | .treset | .esample | .edisable | .eenable | .eclrpend | .rdyset | .rdyclr | .durwr
  | .stop => i.mnemonic

end Sys2Proof.Machine
end

