-- ==== Sys2Proof/Tests/Slice0.lean ====
section
/-! SUPPORT. The model's own tests. Expected results are the spec's: the vectors V-* and examples of 95_test_vectors.md and
of the rules, as each comment says. Then one witness for each statement that has hypotheses. -/

namespace Sys2Proof.Tests

open Sys2Proof.Machine

/-- One field of the state an answer goes on to. -/
def seen {α : Type} (f : State → α) : Result → Option α
  | .next s => some (f s)
  | .fault _ => none
  | .refused _ => none

/-- The state an answer goes on to. -/
def after : Result → Option State := seen id

/-- CFG-B of 95_test_vectors.md. -/
def cfgB : Config := { resetConfig with baseline := 125, fullscale := 125, pct := ⟨50, 1⟩ }

/-- CFG-C of 95_test_vectors.md. -/
def cfgC : Config := { resetConfig with width := 16, baseline := 1000, fullscale := 1000, pct := ⟨25, 1⟩ }

/-- A state in which the foreground runs, with chosen registers. -/
def withRegs (c : Config) (r0 r1 r2 r3 : Option Word) : State := { State.reset with cfg := c, regs := ⟨r0, r1, r2, r3⟩ }

/-- A state inside a handler run. -/
def handling : State := { State.reset with hact := true }

/-- A state whose program is one word. -/
def fetching (w : CommandWord) : State := { State.reset with cfg := { resetConfig with prog := [w] }, schedule := [.foreground] }

/-- A state after a capture of 13 ticks (V-ED-7). -/
def captured : State := { State.reset with cnt := 13, hcap := 13, dur := some 13, rdy := true, en := false }

/-! ### Well-formedness: each check refuses an ill-formed term -/

theorem test_ldi_above_255_ill_formed : (Instr.ldi .r0 256).wf = false := by decide

theorem test_bz_above_127_ill_formed : (Instr.bz .r0 128).wf = false := by decide

theorem test_bnz_below_minus_128_ill_formed : (Instr.bnz .r0 (-129)).wf = false := by decide

theorem test_jmp_above_127_ill_formed : (Instr.jmp 128).wf = false := by decide

theorem test_jmp_below_minus_128_ill_formed : (Instr.jmp (-129)).wf = false := by decide

theorem test_width_0_ill_formed : { resetConfig with width := 0 }.wf = false := by decide

theorem test_width_17_ill_formed : { resetConfig with width := 17 }.wf = false := by decide

theorem test_baseline_at_modulus_ill_formed : { resetConfig with baseline := 256 }.wf = false := by decide

theorem test_fullscale_ill_formed : { resetConfig with fullscale := 2 ^ 31 }.wf = false := by decide

theorem test_pct_above_100_ill_formed : { resetConfig with pct := ⟨301, 3⟩ }.wf = false := by decide

theorem test_pct_no_rational_ill_formed : { resetConfig with pct := ⟨0, 0⟩ }.wf = false := by decide

theorem test_empty_program_ill_formed : { resetConfig with prog := [] }.wf = false := by decide

theorem test_long_program_ill_formed : (Memory.wf (List.replicate 65537 0)) = false := by
  simp only [Memory.wf, List.length_replicate]; decide

theorem test_reset_config_well_formed : resetConfig.wf = true := by decide

/-! ### Decoding: words written out from the encodings of R79, R84, R175 and V-DE -/

theorem test_decode_timer : [0x0800, 0x1000, 0x1800, 0x2000].map (decodeTableWord 16) =
    [some .tstart, some .tstop, some .tread, some .treset] := by decide

theorem test_decode_edge : [0x2800, 0x3000, 0x3800, 0x4000].map (decodeTableWord 16) =
    [some .esample, some .edisable, some .eenable, some .eclrpend] := by decide

theorem test_decode_handoff : [0x4800, 0x5000, 0x5C00, 0x6000, 0x6A00].map (decodeTableWord 16) =
    [some .rdyset, some .rdyclr, some (.rdytst .r2), some .durwr, some (.durrd .r1)] := by decide

theorem test_decode_actuator : [0x7480, 0x7F00, 0x8180].map (decodeTableWord 16) =
    [some (.scale .r2 .r1), some (.cmpth .r3 .r2), some (.outset .r3)] := by decide

theorem test_decode_sequencer : [0x88C8, 0x90FF, 0x9C03, 0xA0F7, 0xA800].map (decodeTableWord 16) =
    [some (.ldi .r0 200), some (.bz .r0 (-1)), some (.bnz .r2 3), some (.jmp (-9)), some .stop] := by decide

/-- V-DE-1 to V-DE-9: the illegal and the reserved-field words. -/
theorem test_decode_illegal :
    [0x0000, 0xB000, 0xFFFF, 0x5801, 0x8900, 0xA100, 0x8200, 0x3801, 0x0801].map (decodeTableWord 16) =
      List.replicate 9 none := by decide

/-- R54: the low byte of a word stands first in an image. -/
theorem test_image_low_byte_first : decodeBytes [0x80, 0x74, 0x00] = .ok (.scale .r2 .r1, [0x00]) := rfl

/-! ### The operations -/

/-- V-TM-7. -/
theorem test_tstart : seen (fun t => (t.cnt, t.run)) (exec .tstart { handling with cnt := 40, run := true }) =
    some (0, true) := by decide

/-- V-TM-14. -/
theorem test_tstart_in_foreground :
    seen (fun t => (t.fault, t.pc, t.cnt)) (exec .tstart { State.reset with pc := 4, cnt := 7 }) =
      some (some ⟨.context 0x0800, 4⟩, 4, 7) := by decide

/-- V-TM-8. -/
theorem test_tstop : seen (fun t => (t.cnt, t.run)) (exec .tstop { handling with cnt := 13, run := true }) =
    some (13, false) := by decide

/-- V-TM-10. -/
theorem test_tread : seen (fun t => (t.hcap, t.cnt)) (exec .tread { handling with cnt := 13, hcap := 99 }) =
    some (13, 13) := by decide

/-- V-TM-11. -/
theorem test_treset : seen (fun t => (t.cnt, t.run)) (exec .treset { handling with cnt := 200, run := true }) =
    some (0, true) := by decide

/-- The example of R121. -/
theorem test_esample : seen State.hlevel (exec .esample { handling with line := true }) = some true := by decide

/-- V-ED-14, in the foreground. -/
theorem test_edisable_in_foreground :
    seen (fun t => (t.en, t.pf, t.hist, t.pc)) (exec .edisable { State.reset with pf := true, pc := 2 }) =
      some (false, true, [.disarm], 3) := by decide

/-- V-ED-14, in BODY: the foreground's pc stays. -/
theorem test_edisable_in_handler : seen (fun t => (t.en, t.pc)) (exec .edisable { handling with pc := 2 }) =
    some (false, 2) := by decide

/-- V-ED-15. -/
theorem test_eenable :
    seen (fun t => (t.en, enabled t .entry, t.hist, t.pc)) (exec .eenable { State.reset with en := false, pf := true }) =
      some (true, true, [.arm], 1) := by decide

/-- V-ED-16. -/
theorem test_eclrpend : seen (fun t => (t.pf, t.hist, t.pc)) (exec .eclrpend { State.reset with pf := true }) =
    some (false, [.clrPend], 1) := by decide

/-- V-HO-1 and V-HO-2. -/
theorem test_rdyset : seen (fun t => (t.rdy, t.ovr)) (exec .rdyset handling) = some (true, false) ∧
    seen (fun t => (t.rdy, t.ovr)) (exec .rdyset { handling with rdy := true }) = some (true, true) := by decide

/-- V-HO-3. -/
theorem test_rdyclr : seen (fun t => (t.rdy, t.hist, t.pc)) (exec .rdyclr captured) = some (false, [.clr], 1) := by decide

/-- V-HO-5 and V-HO-6. -/
theorem test_rdytst : seen (fun t => t.regs.r0) (exec (.rdytst .r0) captured) = some (some 0x00000001) ∧
    seen (fun t => t.regs.r2) (exec (.rdytst .r2) State.reset) = some (some 0x00000000) := by decide

/-- V-HO-7. -/
theorem test_durwr : seen State.dur (exec .durwr { handling with hcap := 13 }) = some (some 13) := by decide

/-- V-HO-8. -/
theorem test_durrd : seen (fun t => (t.regs.r1, t.hist, t.dur)) (exec (.durrd .r1) captured) =
    some (some 0x0000000D, [.read 13], some 13) := by decide

/-- V-HO-9 and V-HO-10: the unwritten check comes before the race. -/
theorem test_durrd_faults :
    seen State.fault (exec (.durrd .r1) State.reset) = some (some ⟨.unwrittenDur, 0⟩) ∧
    seen State.fault (exec (.durrd .r1) { captured with en := true }) = some (some ⟨.raceDur 13, 0⟩) := by decide

/-- V-AC-4 and V-AC-13: a negative result, and a source that is the destination. -/
theorem test_scale_signed :
    seen (fun t => t.regs.r1) (exec (.scale .r1 .r0) (withRegs cfgB (some 100) none none none)) = some (some 0xFFFFFFE7) ∧
    seen (fun t => t.regs.r1) (exec (.scale .r1 .r1) (withRegs cfgB none (some 0xC8) none none)) =
      some (some 0x0000004B) := by decide

/-- V-AC-6 and V-AC-12: the wrapped result, and the overflow under SIGNED. -/
theorem test_scale_wrap_and_overflow :
    seen (fun t => t.regs.r1)
      (exec (.scale .r1 .r0) (withRegs { cfgB with scaleMode := .wrap } (some 100) none none none)) =
      some (some 0x000000E7) ∧
    seen State.fault
      (exec (.scale .r1 .r0) (withRegs { cfgB with baseline := 255 } (some 0x80000000) none none none)) =
      some (some ⟨.overflow (-2147483903), 0⟩) := by decide

/-- V-AC-7: below, at and above the threshold 12. -/
theorem test_cmpth :
    [11, 12, 13].map (fun v => seen (fun t => t.regs.r3) (exec (.cmpth .r3 .r2) (withRegs resetConfig none none (some v) none))) =
      [some (some 0), some (some 1), some (some 1)] := by decide

/-- V-AC-5: a negative value is below every threshold. -/
theorem test_cmpth_negative :
    seen (fun t => t.regs.r2) (exec (.cmpth .r2 .r1) (withRegs cfgB none (some 0xFFFFFFE7) none none)) =
      some (some 0x00000000) := by decide

/-- V-AC-18: any non-zero value is ON. -/
theorem test_outset :
    [0x00000001, 0x00000000, 0x80000000].map (fun v =>
      seen (fun t => (t.out, t.hist)) (exec (.outset .r3) (withRegs resetConfig none none none (some v)))) =
      [some (true, [.out true]), some (false, [.out false]), some (true, [.out true])] := by decide

/-- V-AC-20. -/
theorem test_outset_unwritten : seen (fun t => (t.fault, t.out)) (exec (.outset .r3) { State.reset with out := true }) =
    some (some ⟨.unwrittenReg .r3, 0⟩, true) := by decide

/-- V-SQ-2: no sign extension. -/
theorem test_ldi : seen (fun t => (t.regs.r3, t.pc)) (exec (.ldi .r3 255) State.reset) = some (some 0x000000FF, 1) := by
  decide

/-- V-SQ-4 and V-SQ-6: taken, and taken out of the program. -/
theorem test_bz_taken :
    seen State.pc (exec (.bz .r0 (-1)) { withRegs resetConfig (some 0) none none none with pc := 1 }) = some 0 ∧
    seen State.fault (exec (.bz .r0 (-1)) (withRegs resetConfig (some 0) none none none)) =
      some (some ⟨.fetch (-1), 0⟩) := by decide

/-- V-SQ-7: an untaken branch does not check its target. -/
theorem test_bz_untaken : seen (fun t => (t.pc, t.fault)) (exec (.bz .r0 (-1)) (withRegs resetConfig (some 5) none none none)) =
    some (1, none) := by decide

/-- V-SQ-8 and V-SQ-9. -/
theorem test_bnz :
    seen State.pc (exec (.bnz .r2 3) { withRegs resetConfig none none (some 1) none with pc := 3 }) = some 6 ∧
    seen State.pc (exec (.bnz .r2 3) { withRegs resetConfig none none (some 0) none with pc := 3 }) = some 4 := by decide

/-- V-SQ-10: a self-loop on the sign bit alone. -/
theorem test_bnz_self : seen State.pc (exec (.bnz .r1 0) { withRegs resetConfig none (some 0x80000000) none none with pc := 2 }) =
    some 2 := by decide

/-- V-SQ-11 and V-SQ-13. -/
theorem test_jmp :
    seen State.pc (exec (.jmp (-9)) { State.reset with pc := 9 }) = some 0 ∧
    seen State.fault (exec (.jmp 1) { State.reset with pc := 9 }) = some (some ⟨.fetch 10, 9⟩) := by decide

/-- V-SQ-15. -/
theorem test_stop : seen (fun t => (t.fstop, t.pc, enabled t .foreground)) (exec .stop { State.reset with pc := 9 }) =
    some (true, 9, false) := by decide

/-! ### The agents' steps -/

/-- V-TM-2, V-TM-3 and V-TM-4. -/
theorem test_tick :
    (tick { State.reset with run := true, cnt := 255 }).cnt = 0 ∧
    (tick { State.reset with cnt := 7 }).hist = [.tick none] ∧
    (tick { State.reset with cfg := { resetConfig with width := 1 }, run := true, cnt := 1 }).cnt = 0 := by decide

/-- V-ED-2, V-ED-3 and V-ED-4: an edge while disarmed, by policy. -/
theorem test_edge_disarmed :
    [PendPolicy.latch, .noLatch, .either].map (fun p =>
      [false, true].map fun b =>
        (edge b { State.reset with line := true, en := false, cfg := { resetConfig with pendWhileDisarmed := p } }).pf) =
      [[true, true], [false, false], [false, true]] := by decide

/-- V-ED-6: START. -/
theorem test_body_start :
    body { handling with line := true, cnt := 200, pf := false } =
      { handling with line := true, hlevel := true, cnt := 0, run := true, dstate := .timing, hact := false, hist := [.start] } := by
  decide

/-- V-ED-7: CAPTURE. -/
theorem test_body_capture :
    body { handling with cnt := 13, run := true, dstate := .timing, hlevel := true } =
      { captured with hist := [.disarm, .capture 13] } := by decide

/-- V-ED-10 and V-ED-11: IGNORE under STRICT. -/
theorem test_body_ignore :
    (body { handling with cfg := { resetConfig with edgePolicy := .strict }, line := true, dstate := .timing }).hist =
      [.ignored .timing true] ∧
    (body { handling with cfg := { resetConfig with edgePolicy := .strict } }).hist = [.ignored .idle false] := by decide

/-- V-DE-9 and P3d: illegal words are reported before the context. -/
theorem test_fetch_faults :
    [0x0801, 0x0000, 0x4800].map (fun w => seen State.fault (step (fetching w))) =
      [some (some ⟨.illegal 0x0801, 0⟩), some (some ⟨.illegal 0x0000, 0⟩), some (some ⟨.context 0x4800, 0⟩)] := by decide

/-- V-SQ-16: the step after the last word faults with its index. -/
theorem test_fetch_past_end : seen State.fault (step { fetching 0x8805 with pc := 1 }) = some (some ⟨.fetch 1, 1⟩) := by decide

/-- W1, V-AC-9, V-AC-10 and V-AC-11: the thresholds. -/
theorem test_thresholds :
    resetConfig.threshold = 12 ∧ cfgB.threshold = 62 ∧ cfgC.threshold = 250 ∧
    { resetConfig with pct := ⟨100, 1⟩ }.threshold = 125 ∧
    { resetConfig with fullscale := 9, pct := ⟨100, 3⟩ }.threshold = 3 := by decide

/-- R83 and R84: the reference actuator as it is written assembles to the words of R175. -/
theorem test_assemble_reference :
    assemble [⟨some "loop", .op (.rdytst .r0)⟩, ⟨none, .bz .r0 (.label "loop")⟩, ⟨none, .op .rdyclr⟩,
      ⟨none, .op (.durrd .r1)⟩, ⟨none, .op (.scale .r2 .r1)⟩, ⟨none, .op (.cmpth .r3 .r2)⟩, ⟨none, .op (.outset .r3)⟩,
      ⟨none, .arm⟩, ⟨none, .jmp (.label "loop")⟩] = .ok referenceActuator := rfl

/-- R83: an operand that does not fit is refused. -/
theorem test_assemble_refuses : assemble [⟨none, .jmp (.offset 128)⟩] = .error .outOfRange := rfl

/-- P1's first words run as the first instruction after reset. -/
theorem test_first_step_after_reset :
    seen (fun t => (t.regs.r0, t.pc, t.fault)) (step (State.reset.withFetchWord 16 0x88C8)) =
      some (some 0x000000C8, 1, none) := by decide

/-! ### Witnesses: concrete states and operands that meet the hypotheses of each statement -/

/-- EncodedOperationsDecodeToThemselves: both ends of each operand's range. -/
theorem witness_encoded_operations :
    (Instr.ldi .r3 0).wf = true ∧ (Instr.ldi .r3 255).wf = true ∧ (Instr.bz .r0 (-128)).wf = true ∧
    (Instr.bnz .r1 127).wf = true ∧ (Instr.jmp (-128)).wf = true ∧ Instr.tstart.wf = true := by decide

/-- DecodedWordsEncodeBack, ProgramImagesAreLittleEndian: a word that decodes and words that do not. -/
theorem witness_decoded_words :
    decodeWord 0x7480 = .ok (.scale .r2 .r1) ∧ decodeWord 0xB000 = .error .illegalOpcode ∧
    decodeWord 0x0801 = .error .reservedField := ⟨rfl, rfl, rfl⟩

/-- WordsDecodeByTheirRow, EveryWordIsOneOfThreeThings: a row with a word it selects, and a fetched word no row selects. -/
theorem witness_rows :
    (⟨"SCALE", 0xF87F, 0x7000⟩ : OpcodeRow) ∈ opcodeTable ∧ OpcodeRow.selects ⟨"SCALE", 0xF87F, 0x7000⟩ 0x7480 = true ∧
    (fetching 0xB000).cfg.prog[(fetching 0xB000).pc]? = some 0xB000 ∧
    (∀ r ∈ opcodeTable, r.selects 0xB000 = false) := by decide

/-- TimerOperations, SampleStoreAndPublish, ArmDisarmAndClearPending, BodyRunsItsListing, TimerCountsItsTicks: a state in
the handler and one outside it, with the flag clear and set, and an edge pending. -/
theorem witness_contexts :
    handling.hact = true ∧ handling.rdy = false ∧ { handling with rdy := true }.rdy = true ∧ State.reset.hact = false ∧
    State.reset.fault = none ∧ { State.reset with pf := true }.pf = true := by decide

/-- BodyRunsItsListing: each action is dispatched somewhere. -/
theorem witness_dispatch :
    dispatch .level .idle true = .start ∧ dispatch .strict .timing false = .capture ∧
    dispatch .strict .timing true = .ignore := by decide

/-- ClearAndTestReadyFlag: the flag set and clear. -/
theorem witness_ready_flag : captured.rdy = true ∧ State.reset.rdy = false := by decide

/-- ReadDuration: the three clauses. -/
theorem witness_read_duration :
    State.reset.dur = none ∧
    ({ captured with en := true }.dur = some 13 ∧ { captured with en := true }.en = true ∧ captured.cfg.durAtomic = false) ∧
    (captured.dur = some 13 ∧ captured.en = false) := by decide

/-- ScaleSubtractsTheBaseline: the four clauses, the in-range one at both ends of the range. -/
theorem witness_scale :
    (withRegs resetConfig none none none none).regs.read .r0 = none ∧
    (cfgB.scaleMode = .signed ∧ -(2 ^ 31) ≤ (0x8000007D : Word).toInt - cfgB.baseline ∧
      (0x7FFFFFFF : Word).toInt - cfgB.baseline < 2 ^ 31) ∧
    (0x8000007C : Word).toInt - cfgB.baseline < -(2 ^ 31) ∧
    ({ cfgB with scaleMode := .wrap }.scaleMode = .wrap ∧ cfgB.width ≤ 16) ∧
    (withRegs cfgB (some 100) none none none).regs.read .r0 = some 100 := by decide

/-- ScaleOfADurationCompletes, ActuatorDecision, DecisionIsIdempotent: a well-formed configuration with the largest
duration, disarmed. -/
theorem witness_duration_in_register :
    cfgB.wf = true ∧ 255 < cfgB.modulus ∧
    (withRegs cfgB (some 255) none none none).regs.read .r0 = some (BitVec.ofNat 32 255) ∧
    ({ captured with cfg := cfgB, dur := some 255 }.dur = some 255 ∧ captured.en = false) := by decide

/-- CompareWithTheThreshold: unwritten, at the threshold, just below it. -/
theorem witness_compare :
    State.reset.regs.read .r1 = none ∧ (resetConfig.threshold : Int) ≤ (12 : Word).toInt ∧
    (11 : Word).toInt < resetConfig.threshold := by decide

/-- DriveTheOutput, ConditionalBranches: an unwritten register, a zero and a non-zero one; a target at the last index and
one just past it on either side. -/
theorem witness_branches :
    State.reset.regs.read .r3 = none ∧ (0 : Word).toNat = 0 ∧ (0x80000000 : Word).toNat ≠ 0 ∧
    (withRegs resetConfig (some 0) none none none).regs.read .r0 = some 0 ∧
    ((9 : Nat) : Int) = State.reset.pc + 9 ∧ 9 < State.reset.cfg.plen ∧
    (State.reset.pc + (-1) : Int) < 0 ∧ (State.reset.cfg.plen : Int) ≤ State.reset.pc + 10 := by decide

/-- LoadImmediate, JumpAndStop: operands at the ends of their ranges. -/
theorem witness_immediates : 255 ≤ 255 ∧ (-128 : Int) ≤ -128 ∧ (127 : Int) ≤ 127 := by decide

/-- RegistersReadWhatWasWritten: two registers. -/
theorem witness_two_registers : Reg.r1 ≠ Reg.r0 := by decide

/-- FaultsAreStickyAndChangeNothingElse, EachFaultHasItsCause: a foreground step that raises a fault from a state without
one, and a state that records one. -/
theorem witness_raised_fault :
    (fetching 0x0000).fault = none ∧ (fetching 0x0000).hact = false ∧
    foregroundStep (fetching 0x0000) = .next ((fetching 0x0000).raise (.illegal 0x0000)) ∧
    perform .foreground (fetching 0x0000) = .next ((fetching 0x0000).raise (.illegal 0x0000)) ∧
    ((fetching 0x0000).raise (.illegal 0x0000)).fault = some ⟨.illegal 0x0000, 0⟩ := ⟨rfl, rfl, rfl, rfl, rfl⟩

/-- EachFaultHasItsCause: every one of the seven reasons is raised somewhere. -/
theorem witness_every_fault :
    seen State.fault (foregroundStep (fetching 0xB000)) = some (some ⟨.illegal 0xB000, 0⟩) ∧
    seen State.fault (foregroundStep (fetching 0x0800)) = some (some ⟨.context 0x0800, 0⟩) ∧
    seen State.fault (foregroundStep (fetching 0xA001)) = some (some ⟨.fetch 1, 0⟩) ∧
    seen State.fault (foregroundStep (fetching 0x8000)) = some (some ⟨.unwrittenReg .r0, 0⟩) ∧
    seen State.fault (foregroundStep (fetching 0x6800)) = some (some ⟨.unwrittenDur, 0⟩) ∧
    seen State.fault (foregroundStep { fetching 0x6800 with dur := some 13 }) = some (some ⟨.raceDur 13, 0⟩) ∧
    seen State.fault (foregroundStep
      { fetching 0x7000 with cfg := { cfgB with prog := [0x7000] }, regs := ⟨some 0x80000000, none, none, none⟩ }) =
      some (some ⟨.overflow (-2147483773), 0⟩) := by decide

/-- HandlerOnlyOperationsFaultInTheForeground, EachContextTouchesOnlyItsState, ForegroundCannotReadTheMeasurement,
FirstFaultInOrderIsReported: a handler-only operation outside the handler, and a step of the environment. -/
theorem witness_foreground_state :
    Instr.rdyset.context = .handler ∧ State.reset.hact = false ∧ State.reset.fault = none ∧
    exec .rdyclr captured = .next ({ captured with rdy := false, hist := [.clr], pc := 1 }) ∧
    Turn.tick ≠ .foreground ∧ perform .tick State.reset = .next (State.reset.emit (.tick none)) :=
  ⟨rfl, rfl, rfl, rfl, by decide, rfl⟩

/-- ForegroundStepRunsTheDecodedOperation: a scheduled foreground step at a word that decodes. -/
theorem witness_decoded_step :
    (fetching 0x88C8).cfg.wf = true ∧ (fetching 0x88C8).fault = none ∧ (fetching 0x88C8).hact = false ∧
    (fetching 0x88C8).fstop = false ∧ (fetching 0x88C8).schedule = .foreground :: [] ∧
    (fetching 0x88C8).cfg.prog[(fetching 0x88C8).pc]? = some 0x88C8 ∧ decodeWord 0x88C8 = .ok (.ldi .r0 200) :=
  ⟨by decide, rfl, rfl, rfl, rfl, rfl, rfl⟩

/-- ForegroundFetch: the last index of the program and the one just past it. -/
theorem witness_fetch : (fetching 0x88C8).pc < (fetching 0x88C8).cfg.prog.length ∧
    { fetching 0x88C8 with pc := 1 }.cfg.plen ≤ { fetching 0x88C8 with pc := 1 }.pc := by decide

/-- TickStep, EdgeStep, BodyStep: a counter that runs and one that does not; armed, and disarmed under each policy; each
action. -/
theorem witness_agent_steps :
    { State.reset with run := true }.run = true ∧ State.reset.run = false ∧ State.reset.en = true ∧
    (captured.en = false ∧ captured.cfg.pendWhileDisarmed = .either) ∧
    { resetConfig with pendWhileDisarmed := .noLatch }.pendWhileDisarmed = .noLatch ∧
    ({ handling with line := true }.line = true ∧ handling.cfg.edgePolicy = .level) ∧ handling.line = false ∧
    ({ resetConfig with edgePolicy := .strict }.edgePolicy = .strict ∧ handling.line = false ∧ handling.dstate = .idle) := by
  decide

/-- AnyEnabledStepMayBeNext, UnscheduledStepsAreEnabledSteps: an enabled turn, one that is not, and an empty schedule. -/
theorem witness_turns :
    (State.reset.cfg.wf = true ∧ State.reset.fault = none ∧ State.reset.schedule = []) ∧
    { State.reset with schedule := [.tick] }.schedule = .tick :: [] ∧ enabled State.reset .tick = true ∧
    enabled State.reset .entry = false := by decide

/-- IllFormedConfigurationsAreRefused: a state that is refused. -/
theorem witness_refused :
    step { State.reset with cfg := { resetConfig with width := 0 } } = .refused .illFormedConfig := rfl

/-- The reset state is a launch state and meets the invariant (LaunchStatesMeetTheInvariant). -/
theorem witness_launch : State.reset.IsLaunch :=
  ⟨by decide, rfl, rfl, rfl, rfl, rfl, rfl, rfl, rfl, rfl, rfl, rfl, rfl, by decide, by decide⟩

/-- LaunchStatesMeetTheInvariant, second part: the draws at the top of their ranges. -/
theorem witness_draws : cfgC.wf = true ∧ 65535 < 2 ^ cfgC.width := by decide

/-- A state that meets the invariant in the middle of a measurement, with a step out of it (StepsKeepTheInvariant,
NoStepWritesTheConfiguration, HistoryOnlyGrows, StepsKeepTheHistoryInAgreement). -/
theorem witness_step :
    State.reset.Inv ∧ State.reset.HistoryAgrees ∧
    step { State.reset with schedule := [.tick] } = .next (State.reset.emit (.tick none)) :=
  ⟨⟨by decide, by decide, by decide, by decide, by decide, by decide, by decide, by decide, by decide⟩, rfl, rfl⟩

/-- WrittenStaysWritten: a written register, a written duration, and a step. -/
theorem witness_written :
    (withRegs resetConfig (some 0) none none none).regs.read .r0 ≠ none ∧ captured.dur ≠ none ∧
    (after (step { captured with schedule := [.tick] })).isSome = true := by decide

/-- StoppedForegroundStaysStopped: a stopped foreground, and a step of the block. -/
theorem witness_stopped :
    { State.reset with fstop := true, schedule := [.tick] }.fstop = true ∧
    (after (step { State.reset with fstop := true, schedule := [.tick] })).isSome = true := by decide

/-- DisarmedWindowExcludesTheHandler: the disarmed state after a capture, with a step and with the re-arm. -/
theorem witness_disarmed :
    (captured.en = false ∧ captured.hact = false) ∧ (after (step { captured with schedule := [.edge true] })).isSome = true ∧
    seen State.en (step { captured with cfg := { resetConfig with prog := [0x3800] }, schedule := [.foreground] }) =
      some true := by decide

/-- HandlerRunExcludesTheForeground, BlockIgnoresTheForeground: a handler run, with the step that ends it. -/
theorem witness_handler_run :
    handling.hact = true ∧ seen State.hact (step { handling with schedule := [.body] }) = some false ∧
    Turn.body ≠ .foreground := by decide

/-- TimingIsLeftOnlyByACapture: a step that leaves Timing and one that does not. -/
theorem witness_timing :
    seen State.dstate (step { handling with dstate := .timing, run := true, schedule := [.body] }) = some .idle ∧
    seen State.dstate (step { handling with dstate := .timing, run := true, schedule := [.tick] }) = some .timing := by decide

/-- A clean pulse of two ticks with a foreground step mixed in: edge, tick, entry, body, tick, foreground, edge, entry, tick,
body. -/
def pulse : State :=
  { State.reset with schedule := [.edge false, .tick, .entry, .body, .tick, .foreground, .edge false, .entry, .tick, .body] }

/-- CleanPulsePublishesItsTicks: all its hypotheses together, for `pulse`. -/
theorem witness_clean_pulse :
    (pulse.dstate = .idle ∧ pulse.en = true ∧ pulse.pf = false ∧ pulse.hact = false ∧ pulse.line = false) ∧
    noEdge ([.tick] ++ [] ++ [.tick, .foreground] ++ [] ++ [.tick]) = true ∧
    pulse.schedule = (.edge false :: [.tick] ++ .entry :: [] ++ [.body]) ++
      ([.tick, .foreground] ++ .edge false :: [] ++ .entry :: [.tick] ++ [.body]) ++ [] ∧
    (∀ k u, k < 10 → runFor k pulse = .next u → nextTurn u = .foreground →
      u.operation ≠ some .edisable ∧ u.operation ≠ some .eenable ∧ u.operation ≠ some .eclrpend) ∧
    ∃ t, runFor 10 pulse = .next t := by
  refine ⟨by decide, by decide, by decide, ?_, ⟨_, rfl⟩⟩
  intro k u hk hr
  have hall : ∀ k : Fin 10, ∀ v, after (runFor k pulse) = some v → nextTurn v = .foreground →
      v.operation ≠ some .edisable ∧ v.operation ≠ some .eenable ∧ v.operation ≠ some .eclrpend := by
    have : ∀ k : Fin 10, (match after (runFor k pulse) with
        | some v => decide (nextTurn v = .foreground) && (decide (v.operation = some .edisable) ||
            decide (v.operation = some .eenable) || decide (v.operation = some .eclrpend))
        | none => false) = false := by decide
    intro k v hv hf
    have hk := this k
    rw [hv] at hk
    simp_all
  exact hall ⟨k, hk⟩ u (by simp [hr, after, seen])

/-- ThresholdIsTheExactFloor, LaunchStatesMeetTheInvariant: configurations at both ends of PCT. -/
theorem witness_thresholds :
    { resetConfig with pct := ⟨0, 1⟩ }.wf = true ∧ { resetConfig with pct := ⟨100, 1⟩ }.wf = true := by decide

/-- DecisionIsMonotonic: the durations around BASELINE under WRAP, and any two under SIGNED. -/
theorem witness_monotonic :
    ({ cfgB with scaleMode := .wrap }.wf = true ∧ 125 < 255 ∧ 255 < 2 ^ cfgB.width ∧ cfgB.baseline ≤ 125) ∧
    (cfgB.scaleMode = .signed ∧ 0 < 255) ∧
    (withRegs cfgB (some 125) none none none).regs.read .r0 = some (BitVec.ofNat 32 125) ∧
    (withRegs cfgB (some 255) none none none).regs.read .r0 = some (BitVec.ofNat 32 255) := by decide

/-- ConsumeAndRearmRestoresLaunchValues: the state after a capture of 13. -/
theorem witness_consume :
    captured.cfg.wf = true ∧ captured.dur = some 13 ∧ 13 < 2 ^ captured.cfg.width ∧ captured.dstate = .idle ∧
    captured.run = false ∧ captured.hact = false ∧ captured.en = false := by decide

/-- RearmAfterConsumeNeverDoublePublishes: the re-arm after the flag was cleared, as a step. -/
def rearming : State :=
  { captured with rdy := false, cfg := { resetConfig with prog := [0x3800] }, schedule := [.foreground] }

theorem witness_rearm :
    rearming.Inv ∧ (rearming.en = true → rearming.rdy = false) ∧ rearming.ovr = false ∧ rearming.rearmsConsumed ∧
    nextTurn rearming = .foreground ∧ rearming.operation = some .eenable ∧
    seen State.en (step rearming) = some true :=
  ⟨⟨by decide, by decide, by decide, fun d h => by cases h; decide, by decide, by decide, by decide, by decide, by decide⟩,
    by decide, rfl, fun _ _ => rfl, rfl, rfl, rfl⟩

/-- An execution in which a handler run ends and then only the clock goes on: the foreground has stopped and the block is
disarmed. -/
def lastRun : Nat → State
  | 0 => { handling with fstop := true }
  | n + 1 => ticks n (body { handling with fstop := true })

/-- The turns of `lastRun`. -/
def lastRunTurns : Nat → Turn
  | 0 => .body
  | _ + 1 => .tick

/-- HandlerRunsEndInFairExecutions: a fair execution with an active handler at its start. -/
theorem witness_fair_execution : FairExecution lastRun lastRunTurns ∧ (lastRun 0).hact = true := by
  have hframe := fun n => Laws.ticks_frame n (body { handling with fstop := true })
  have hidle : ∀ n, agentEnabled .hnd (lastRun (n + 1)) = false ∧ agentEnabled .fg (lastRun (n + 1)) = false := by
    intro n
    obtain ⟨hf, -, he, hh, hs⟩ := hframe n
    replace hf : (lastRun (n + 1)).fault = none := hf
    replace he : (lastRun (n + 1)).en = false := he
    replace hh : (lastRun (n + 1)).hact = false := hh
    replace hs : (lastRun (n + 1)).fstop = true := hs
    simp [agentEnabled, enabledTurns, allTurns, enabled, hf, he, hh, hs, Turn.agent]
  have hnever : ∀ a, (a = .hnd ∨ a = .fg) → FairTo a lastRun lastRunTurns := by
    intro a ha n h
    have hn := h (n + 1) (Nat.le_succ n)
    rcases ha with rfl | rfl
    · rw [(hidle n).1] at hn; cases hn
    · rw [(hidle n).2] at hn; cases hn
  refine ⟨⟨?_, hnever _ (.inl rfl), hnever _ (.inr rfl)⟩, rfl⟩
  intro n
  cases n with
  | zero => exact ⟨by decide, rfl, rfl⟩
  | succ n =>
    obtain ⟨hf, hc, -, -, -⟩ := hframe n
    replace hf : (lastRun (n + 1)).fault = none := hf
    refine ⟨?_, by simp [lastRunTurns, enabled, hf], ?_⟩
    · show (ticks n (body { handling with fstop := true })).cfg.wf = true
      rw [hc]; decide
    · show Host.Outcome.next (tick (ticks n _)) = .next (ticks (n + 1) _)
      rw [Laws.ticks_succ]

end Sys2Proof.Tests
end

/-! SUPPORT AND PROOFS of the family 10_state.md. A foreground step is one of eleven effects, chosen by what the foreground
can read; a step of ENV or HND is one of a few record updates. Each obligation is then a fact about those. -/

namespace Sys2Proof.Proofs.StateFamily

open Sys2Proof Sys2Proof.Machine Sys2Proof.Laws

/-! ### What a foreground operation can do -/

/-- The effects a foreground step can have (60_exceptions.md R210, 45_sequencer.md R192-R198 and the operations' rules). -/
inductive Effect where
  | raise (r : FaultReason)
  | advance
  | write (rd : Reg) (v : Word)
  | read (rd : Reg) (d : Nat)
  | drive (b : Bool)
  | disarm
  | arm
  | clearPending
  | consume
  | jump (n : Nat)
  | halt

/-- The next state an effect leads to. -/
def Effect.apply : Effect → State → State
  | .raise r, s => s.raise r
  | .advance, s => s.advance
  | .write rd v, s => (s.writeReg rd v).advance
  | .read rd d, s => ((s.writeReg rd (wordOfNat d)).emit (.read d)).advance
  | .drive b, s => ((s.setOut b).emit (.out b)).advance
  | .disarm, s => (Machine.disarm s).advance
  | .arm, s => ((s.setEn true).emit .arm).advance
  | .clearPending, s => ((s.setPf false).emit .clrPend).advance
  | .consume, s => ((s.setRdy false).emit .clr).advance
  | .jump n, s => s.setPc n
  | .halt, s => s.setFstop true

/-- The events an effect appends to the history (R37). -/
def Effect.events : Effect → List Event
  | .raise r => [.fault r]
  | .advance => []
  | .write _ _ => []
  | .read _ d => [.read d]
  | .drive b => [.out b]
  | .disarm => [.disarm]
  | .arm => [.arm]
  | .clearPending => [.clrPend]
  | .consume => [.clr]
  | .jump _ => []
  | .halt => []

/-- Which operation can have the effect in which state: a handler-only one only raises F_CONTEXT (R213), the gate, the
pending flag, the ready flag and `fstop` have one operation each, and a branch stays inside the program (R195). -/
def Effect.IssuedBy (i : Instr) (s : State) : Effect → Prop
  | .raise r => i.context = .handler → r = .context (encode i)
  | .advance => i.context = .foreground
  | .write _ _ => i.context = .foreground
  | .read rd _ => i = .durrd rd
  | .drive _ => ∃ rs, i = .outset rs
  | .disarm => i = .edisable
  | .arm => i = .eenable
  | .clearPending => i = .eclrpend
  | .consume => i = .rdyclr
  | .jump n => i.context = .foreground ∧ n < s.cfg.plen
  | .halt => i = .stop

/-- Only a raised fault is an effect of a handler-only operation. -/
theorem issuedBy_handler {e : Effect} {i : Instr} {s : State} (h : e.IssuedBy i s) (hi : i.context = .handler) :
    e = .raise (.context (encode i)) := by
  cases e with
  | raise r => rw [h hi]
  | advance | write => cases hi.symm.trans h
  | read | disarm | arm | clearPending | consume | halt => subst h; cases hi
  | drive => obtain ⟨rs, rfl⟩ := h; cases hi
  | jump => cases hi.symm.trans h.1

section Frame

variable (e : Effect) (s : State)

@[simp] theorem apply_cfg : (e.apply s).cfg = s.cfg := by cases e <;> rfl
@[simp] theorem apply_line : (e.apply s).line = s.line := by cases e <;> rfl
@[simp] theorem apply_cnt : (e.apply s).cnt = s.cnt := by cases e <;> rfl
@[simp] theorem apply_run : (e.apply s).run = s.run := by cases e <;> rfl
@[simp] theorem apply_dstate : (e.apply s).dstate = s.dstate := by cases e <;> rfl
@[simp] theorem apply_hact : (e.apply s).hact = s.hact := by cases e <;> rfl
@[simp] theorem apply_hlevel : (e.apply s).hlevel = s.hlevel := by cases e <;> rfl
@[simp] theorem apply_hcap : (e.apply s).hcap = s.hcap := by cases e <;> rfl
@[simp] theorem apply_dur : (e.apply s).dur = s.dur := by cases e <;> rfl
@[simp] theorem apply_ovr : (e.apply s).ovr = s.ovr := by cases e <;> rfl

@[simp] theorem apply_hist : (e.apply s).hist = s.hist ++ e.events := by
  cases e <;> simp [Effect.apply, Effect.events, Machine.disarm]

theorem events_length_le : e.events.length ≤ 1 := by cases e <;> simp [Effect.events]

/-- The events of an effect tell all that it changes of the published state (R37, R38). -/
theorem apply_monitor : (e.apply s).monitor = e.events.foldl Monitor.see s.monitor := by cases e <;> rfl

variable {e s}

/-- No effect sets the ready flag (R30, R42). -/
theorem rdy_of_apply_rdy (h : (e.apply s).rdy = true) : s.rdy = true := by
  cases e with
  | consume => cases h
  | _ => exact h

end Frame

/-- Only EDISABLE and EENABLE write the gate (R122, R123). -/
theorem apply_en_ne {e : Effect} {i : Instr} {s : State} (hi : e.IssuedBy i s) (h : (e.apply s).en ≠ s.en) :
    i = .edisable ∨ i = .eenable := by
  cases e with
  | disarm => exact .inl hi
  | arm => exact .inr hi
  | _ => exact absurd rfl h

/-- Only ECLRPEND writes the pending flag (R124). -/
theorem apply_pf_ne {e : Effect} {i : Instr} {s : State} (hi : e.IssuedBy i s) (h : (e.apply s).pf ≠ s.pf) :
    i = .eclrpend := by
  cases e with
  | clearPending => exact hi
  | _ => exact absurd rfl h

/-- From a pc inside the program an operation leads to one inside it or just past it (R33). -/
theorem apply_pc_le {e : Effect} {i : Instr} {s : State} (hi : e.IssuedBy i s) (h : s.pc < s.cfg.plen) :
    (e.apply s).pc ≤ s.cfg.plen := by
  cases e with
  | jump n => exact Nat.le_of_lt hi.2
  | raise | halt => exact Nat.le_of_lt h
  | _ => exact h

/-! ### An operation's effect depends on what the foreground can read, and on nothing else -/

/-- The second state holds what the first holds in every element and parameter the foreground reads (R42). -/
structure SameView (s s' : State) : Prop where
  hact : s'.hact = s.hact
  en : s'.en = s.en
  rdy : s'.rdy = s.rdy
  dur : s'.dur = s.dur
  pc : s'.pc = s.pc
  regs : s'.regs = s.regs
  width : s'.cfg.width = s.cfg.width
  baseline : s'.cfg.baseline = s.cfg.baseline
  threshold : s'.cfg.threshold = s.cfg.threshold
  scaleMode : s'.cfg.scaleMode = s.cfg.scaleMode
  durAtomic : s'.cfg.durAtomic = s.cfg.durAtomic
  prog : s'.cfg.prog = s.cfg.prog

theorem SameView.refl (s : State) : SameView s s := ⟨rfl, rfl, rfl, rfl, rfl, rfl, rfl, rfl, rfl, rfl, rfl, rfl⟩

/-- A meaning has one effect, which `i` can issue in `s`, in every state the foreground cannot tell from `s`. -/
def HasEffect (i : Instr) (s : State) (op : State → Result) : Prop :=
  ∃ e : Effect, e.IssuedBy i s ∧ ∀ s', SameView s s' → op s' = .next (e.apply s')

section HasEffect

variable {i : Instr} {s : State}

/-- An operation of the foreground's own may raise any fault. -/
theorem raise_issuedBy (hi : i.context = .foreground) (r : FaultReason) : (Effect.raise r).IssuedBy i s :=
  fun h => nomatch hi.symm.trans h

theorem handlerOnly_hasEffect (hs : s.hact = false) (f : State → State) : HasEffect i s (handlerOnly i f) :=
  ⟨.raise (.context (encode i)), fun _ => rfl, fun s' hv => by simp [handlerOnly, hv.hact, hs, trap, Effect.apply]⟩

theorem write_hasEffect (hi : i.context = .foreground) {rd : Reg} {val : State → Word}
    (hval : ∀ s', SameView s s' → val s' = val s) : HasEffect i s fun s' => complete (s'.writeReg rd (val s')) :=
  ⟨.write rd (val s), hi, fun s' hv => by simp only [hval s' hv]; rfl⟩

theorem withSource_hasEffect (hi : i.context = .foreground) {r : Reg} {k : State → Word → Result}
    (hk : ∀ v, HasEffect i s fun s' => k s' v) : HasEffect i s fun s' => withSource r s' (k s') := by
  cases hr : s.regs.read r with
  | none =>
    exact ⟨.raise (.unwrittenReg r), raise_issuedBy hi _, fun s' hv => by simp only [withSource, hv.regs, hr]; rfl⟩
  | some v =>
    obtain ⟨e, he, hop⟩ := hk v
    exact ⟨e, he, fun s' hv => by simp only [withSource, hv.regs, hr]; exact hop s' hv⟩

theorem branch_hasEffect (hi : i.context = .foreground) (off : Int) :
    HasEffect i s fun s' => branchTo (branchTarget s' off) s' := by
  have htarget : ∀ s', SameView s s' → branchTarget s' off = branchTarget s off := fun s' hv => by
    simp only [branchTarget, hv.pc]
  by_cases hz : branchTarget s off < 0 ∨ (s.cfg.plen : Int) ≤ branchTarget s off
  · refine ⟨.raise (.fetch (branchTarget s off)), raise_issuedBy hi _, fun s' hv => ?_⟩
    simp only [branchTo, Config.plen, hv.prog, htarget s' hv]
    exact if_pos hz
  · refine ⟨.jump (branchTarget s off).toNat, ⟨hi, by omega⟩, fun s' hv => ?_⟩
    simp only [branchTo, Config.plen, hv.prog, htarget s' hv]
    exact if_neg hz

theorem durrd_hasEffect (rd : Reg) : HasEffect (.durrd rd) s (execDurrd rd) := by
  cases hd : s.dur with
  | none =>
    exact ⟨.raise .unwrittenDur, raise_issuedBy rfl _, fun s' hv => by simp only [execDurrd, hv.dur, hd]; rfl⟩
  | some d =>
    cases hr : s.en && !s.cfg.durAtomic with
    | true =>
      exact ⟨.raise (.raceDur d), raise_issuedBy rfl _, fun s' hv => by
        simp only [execDurrd, hv.dur, hd, hv.en, hv.durAtomic, hr]; rfl⟩
    | false =>
      exact ⟨.read rd d, rfl, fun s' hv => by
        simp only [execDurrd, hv.dur, hd, hv.en, hv.durAtomic, hr]; rfl⟩

theorem scale_hasEffect (rd rs : Reg) : HasEffect (.scale rd rs) s (execScale rd rs) := by
  refine withSource_hasEffect rfl fun v => ?_
  have hsub : ∀ s', SameView s s' → signedDifference s'.cfg v = signedDifference s.cfg v := fun s' hv => by
    simp only [signedDifference, hv.baseline]
  have hwrap : ∀ s', SameView s s' → wrappedDifference s'.cfg v = wrappedDifference s.cfg v := fun s' hv => by
    simp only [wrappedDifference, Config.modulus, hv.baseline, hv.width]
  cases hm : s.cfg.scaleMode with
  | wrap =>
    exact ⟨.write rd _, rfl, fun s' hv => by simp only [hv.scaleMode, hm, hwrap s' hv]; rfl⟩
  | signed =>
    cases ho : overflows (signedDifference s.cfg v) with
    | true =>
      exact ⟨.raise (.overflow _), raise_issuedBy rfl _, fun s' hv => by
        simp only [hv.scaleMode, hm, hsub s' hv, ho]; rfl⟩
    | false =>
      exact ⟨.write rd _, rfl, fun s' hv => by simp only [hv.scaleMode, hm, hsub s' hv, ho]; rfl⟩

theorem bz_hasEffect (ra : Reg) (off : Int) : HasEffect (.bz ra off) s (execBz ra off) := by
  refine withSource_hasEffect rfl fun v => ?_
  cases hv : isNonzero v with
  | true => exact ⟨.advance, rfl, fun _ _ => rfl⟩
  | false => exact branch_hasEffect rfl off

theorem bnz_hasEffect (ra : Reg) (off : Int) : HasEffect (.bnz ra off) s (execBnz ra off) := by
  refine withSource_hasEffect rfl fun v => ?_
  cases hv : isNonzero v with
  | true => exact branch_hasEffect rfl off
  | false => exact ⟨.advance, rfl, fun _ _ => rfl⟩

end HasEffect

/-- Outside the handler every operation has one effect, which depends only on what the foreground reads. -/
theorem exec_hasEffect (i : Instr) {s : State} (hs : s.hact = false) : HasEffect i s (exec i) := by
  cases i with
  | tstart | tstop | tread | treset | esample | rdyset | durwr => exact handlerOnly_hasEffect hs _
  | edisable => exact ⟨.disarm, rfl, fun s' hv => by simp [exec, execEdisable, hv.hact, hs, complete, Effect.apply]⟩
  | eenable => exact ⟨.arm, rfl, fun _ _ => rfl⟩
  | eclrpend => exact ⟨.clearPending, rfl, fun _ _ => rfl⟩
  | rdyclr => exact ⟨.consume, rfl, fun _ _ => rfl⟩
  | rdytst rd => exact write_hasEffect rfl fun s' hv => by rw [hv.rdy]
  | durrd rd => exact durrd_hasEffect rd
  | scale rd rs => exact scale_hasEffect rd rs
  | cmpth rd rs =>
    exact withSource_hasEffect rfl fun v => write_hasEffect rfl fun s' hv => by
      simp only [reachesThreshold, hv.threshold]
  | outset rs => exact withSource_hasEffect rfl fun v => ⟨.drive (isNonzero v), ⟨rs, rfl⟩, fun _ _ => rfl⟩
  | ldi rd imm => exact ⟨.write rd (wordOfNat imm), rfl, fun _ _ => rfl⟩
  | bz ra off => exact bz_hasEffect ra off
  | bnz ra off => exact bnz_hasEffect ra off
  | jmp off => exact branch_hasEffect rfl off
  | stop => exact ⟨.halt, rfl, fun _ _ => rfl⟩

/-- Outside the handler the foreground's step has one effect, which depends only on what the foreground reads: a fault at
fetch or decode, or what the operation at the pc issues. -/
theorem foregroundStep_effect {s : State} (hs : s.hact = false) :
    ∃ e : Effect,
      ((∃ r, e = .raise r) ∨ ∃ i, s.operation = some i ∧ s.pc < s.cfg.plen ∧ e.IssuedBy i s) ∧
      ∀ s', SameView s s' → foregroundStep s' = .next (e.apply s') := by
  cases hf : fetchWord s.cfg.prog s.pc with
  | none =>
    exact ⟨.raise (.fetch s.pc), .inl ⟨_, rfl⟩, fun s' hv => by
      simp only [foregroundStep, hv.prog, hv.pc, hf]; rfl⟩
  | some w =>
    cases hd : decodeWord w with
    | error err =>
      exact ⟨.raise (.illegal w), .inl ⟨_, rfl⟩, fun s' hv => by
        simp only [foregroundStep, hv.prog, hv.pc, hf, hd]; rfl⟩
    | ok i =>
      obtain ⟨e, hi, he⟩ := exec_hasEffect i hs
      refine ⟨e, .inr ⟨i, by simp [State.operation, hf, hd], (fetchWord_some_iff _ _).mp ⟨w, hf⟩, hi⟩, fun s' hv => ?_⟩
      simp only [foregroundStep, hv.prog, hv.pc, hf, hd]
      exact he s' hv

/-! ### What a step of ENV or HND can do -/

theorem tick_running {s : State} (h : s.run = true) :
    tick s = { s with cnt := (s.cnt + 1) % s.cfg.modulus
                      hist := s.hist ++ [.tick (some ((s.cnt + 1) % s.cfg.modulus))] } :=
  if_pos h

theorem tick_stopped {s : State} (h : s.run = false) : tick s = s.emit (.tick none) :=
  if_neg (ne_true_of_eq_false h)

/-- TICK writes the counter and tells its new value, and the counter stays below 2^W (R100, R22). -/
theorem tick_cases (s : State) :
    ∃ c n, tick s = { s with cnt := c, hist := s.hist ++ [.tick n] } ∧ (s.cnt < s.cfg.modulus → c < s.cfg.modulus) := by
  obtain hr | hr := Bool.eq_false_or_eq_true s.run
  · exact ⟨_, _, tick_running hr, fun h => Nat.mod_lt _ (Nat.zero_lt_of_lt h)⟩
  · exact ⟨s.cnt, none, tick_stopped hr, id⟩

/-- BODY samples the line, starts a measurement, captures one or ignores the edge, and returns (R131-R135). -/
theorem body_cases (s : State) :
    body s = { s with hlevel := s.line, cnt := 0, run := true, dstate := .timing, hact := false,
                      hist := s.hist ++ [.start] } ∨
    body s = { s with hlevel := s.line, run := false, hcap := s.cnt, dur := some s.cnt, ovr := s.ovr || s.rdy,
                      rdy := true, en := false, dstate := .idle, hact := false,
                      hist := s.hist ++ [.disarm, .capture s.cnt] } ∨
    body s = { s with hlevel := s.line, hact := false, hist := s.hist ++ [.ignored s.dstate s.line] } := by
  unfold body
  cases dispatch s.cfg.edgePolicy s.dstate (sampleLine s).hlevel with
  | start => exact .inl rfl
  | capture =>
    refine .inr (.inl ?_)
    simp [act, captureAction, captureOps, disarm, publish, writeDuration, readTimer, stopTimer, sampleLine, State.setRun,
      State.setEn, State.emit, State.setDstate, State.leaveHandler]
  | ignore => exact .inr (.inr rfl)

/-- A step of ENV or HND leaves the foreground's own state, the configuration and the fault alone, does not clear the ready
flag, and writes the duration only in BODY and the counter only in TICK and BODY (R42). -/
theorem block_frame {u : Turn} {s t : State} (hu : u ≠ .foreground) (h : perform u s = .next t) :
    (t.out = s.out ∧ t.pc = s.pc ∧ t.regs = s.regs ∧ t.fstop = s.fstop ∧ (s.rdy = true → t.rdy = true) ∧
      (t.dur ≠ s.dur → u = .body) ∧ (t.cnt ≠ s.cnt → u = .tick ∨ u = .body)) ∧ t.cfg = s.cfg ∧ t.fault = s.fault := by
  cases u with
  | foreground => exact absurd rfl hu
  | tick =>
    cases h
    obtain ⟨c, n, ht, -⟩ := tick_cases s
    simp [ht]
  | edge draw => cases h; simp [edge]
  | entry => cases h; simp [entry]
  | body =>
    cases h
    obtain hb | hb | hb := body_cases s <;> simp [hb]

/-! ### What a step can do -/

/-- HND enters only outside the handler, armed and with an edge pending (R130). -/
theorem entry_enabled {s : State} (h : enabled s .entry = true) :
    s.fault = none ∧ s.hact = false ∧ s.en = true ∧ s.pf = true := by
  simpa [enabled, and_assoc] using h

theorem enabled_takeTurn (s : State) : enabled (takeTurn s) = enabled s := by
  obtain ⟨l, n, hs⟩ := takeTurn_eq s
  rw [hs]
  rfl

/-- A step that answers a next state is an enabled step of the agent whose turn it is, in a state that differs from the
given one only in the model's own schedule and counter of turns. -/
theorem step_perform {s t : State} (h : step s = .next t) :
    ∃ l n, s.fault = none ∧ enabled { s with schedule := l, turns := n } (nextTurn s) = true ∧
      perform (nextTurn s) { s with schedule := l, turns := n } = .next t := by
  obtain ⟨-, hf, hen, hp⟩ := step_next h
  obtain ⟨l, n, hs⟩ := takeTurn_eq s
  exact ⟨l, n, hf, hen, hs ▸ hp⟩

/-- An enabled foreground step is outside the handler, and applies an effect that leads no further than just past the
program (R33). -/
theorem perform_foreground {s t : State} (hen : enabled s .foreground = true) (h : perform .foreground s = .next t) :
    s.hact = false ∧ ∃ e : Effect, t = e.apply s ∧ (s.pc ≤ s.cfg.plen → t.pc ≤ s.cfg.plen) := by
  obtain ⟨-, hh, -⟩ := foreground_enabled hen
  obtain ⟨e, hi, he⟩ := foregroundStep_effect hh
  cases (he s (.refl s)).symm.trans h
  refine ⟨hh, e, rfl, fun hpc => ?_⟩
  obtain ⟨r, rfl⟩ | ⟨i, -, hlt, hi⟩ := hi
  · exact hpc
  · exact apply_pc_le hi hlt

/-! ### The invariant (O40) -/

theorem tick_keeps_inv {s : State} (h : s.Inv) : (tick s).Inv := by
  obtain ⟨c, n, ht, hc⟩ := tick_cases s
  rw [ht]
  exact { h with cnt := hc h.cnt }

theorem edge_keeps_inv (draw : Bool) {s : State} (h : s.Inv) : (edge draw s).Inv := { h with }

/-- ENTRY makes the handler active, and is enabled only while armed (R130). -/
theorem entry_keeps_inv {s : State} (h : s.Inv) (hf : s.fault = none) (hen : s.en = true) : (entry s).Inv :=
  { h with hact := fun _ => hen, fault := fun hne => absurd hf hne }

/-- A start runs the counter and enters Timing, a capture stops it and enters Idle with a duration behind the flag (R133,
R134). -/
theorem body_keeps_inv {s : State} (h : s.Inv) : (body s).Inv := by
  obtain hb | hb | hb := body_cases s <;> rw [hb]
  · exact { h with cnt := Nat.two_pow_pos s.cfg.width, run := by simp, hact := nofun, fault := fun _ => rfl }
  · exact { h with
      hcap := h.cnt
      dur := fun d hd => Option.some.inj hd ▸ h.cnt
      run := by simp
      hact := nofun
      rdy := nofun
      fault := fun _ => rfl }
  · exact { h with hact := nofun, fault := fun _ => rfl }

theorem apply_keeps_inv {e : Effect} {s : State} (h : s.Inv) (hh : s.hact = false)
    (hpc : (e.apply s).pc ≤ s.cfg.plen) : (e.apply s).Inv where
  cfg_wf := by simpa using h.cfg_wf
  cnt := by simpa using h.cnt
  hcap := by simpa using h.hcap
  dur := by simpa using h.dur
  pc := by simpa using hpc
  run := by simpa using h.run
  hact := by simp [hh]
  rdy := fun hr => by simpa using h.rdy (rdy_of_apply_rdy hr)
  fault := by simp [hh]

theorem perform_keeps_inv {u : Turn} {s t : State} (hs : s.Inv) (hf : s.fault = none) (hen : enabled s u = true)
    (h : perform u s = .next t) : t.Inv := by
  cases u with
  | tick => cases h; exact tick_keeps_inv hs
  | edge draw => cases h; exact edge_keeps_inv draw hs
  | entry =>
    cases h
    obtain ⟨-, -, harmed, -⟩ := entry_enabled hen
    exact entry_keeps_inv hs hf harmed
  | body => cases h; exact body_keeps_inv hs
  | foreground =>
    obtain ⟨hh, e, rfl, hpc⟩ := perform_foreground hen h
    exact apply_keeps_inv hs hh (hpc hs.pc)

/-- Settles O40: each agent's step keeps the invariant. -/
theorem stepsKeepTheInvariant : Obligations.StepsKeepTheInvariant := by
  intro s t hs h
  obtain ⟨l, n, hf, hen, hp⟩ := step_perform h
  have hs' : State.Inv { s with schedule := l, turns := n } := { hs with }
  exact perform_keeps_inv hs' hf hen hp

/-! ### The history (O41, O43) -/

/-- From `s` to `t` the history grows by at most two events, and they tell all that changed of the published state. -/
def Accounted (s t : State) : Prop :=
  ∃ es, t.hist = s.hist ++ es ∧ es.length ≤ 2 ∧ t.monitor = es.foldl Monitor.see s.monitor

/-- An effect tells its events; TICK, EDGE, ENTRY and a BODY that starts or ignores tell one, and a capture tells two. -/
theorem perform_accounted {u : Turn} {s t : State} (hen : enabled s u = true) (h : perform u s = .next t) :
    Accounted s t := by
  cases u with
  | foreground =>
    obtain ⟨-, e, rfl, -⟩ := perform_foreground hen h
    exact ⟨e.events, apply_hist e s, Nat.le_succ_of_le (events_length_le e), apply_monitor e s⟩
  | tick =>
    cases h
    obtain ⟨c, n, ht, -⟩ := tick_cases s
    rw [ht]
    exact ⟨[.tick n], rfl, by simp, rfl⟩
  | edge draw => cases h; exact ⟨[.edge (!s.line)], rfl, by simp, rfl⟩
  | entry => cases h; exact ⟨[.entry], rfl, by simp, rfl⟩
  | body =>
    cases h
    obtain hb | hb | hb := body_cases s <;> rw [hb]
    · exact ⟨[.start], rfl, by simp, rfl⟩
    · exact ⟨[.disarm, .capture s.cnt], rfl, by simp, rfl⟩
    · exact ⟨[.ignored s.dstate s.line], rfl, by simp, rfl⟩

theorem step_accounted {s t : State} (h : step s = .next t) : Accounted s t := by
  obtain ⟨l, n, -, hen, hp⟩ := step_perform h
  exact perform_accounted (s := { s with schedule := l, turns := n }) hen hp

/-- Settles O41: the observer that has seen the history so far agrees after the step's events too. -/
theorem stepsKeepTheHistoryInAgreement : Obligations.StepsKeepTheHistoryInAgreement := by
  intro s t hs h
  obtain ⟨es, hist, -, hmon⟩ := step_accounted h
  calc Monitor.replay t.hist = es.foldl Monitor.see (Monitor.replay s.hist) := by
        rw [hist, Monitor.replay, List.foldl_append]; rfl
    _ = es.foldl Monitor.see s.monitor := by rw [hs]
    _ = t.monitor := hmon.symm

/-- Settles O43: the events that account for a step are at most two. -/
theorem historyOnlyGrows : Obligations.HistoryOnlyGrows := by
  intro s t h
  obtain ⟨es, hist, hlen, -⟩ := step_accounted h
  exact ⟨es, hist, hlen⟩

/-! ### Frames (O26, O42, O45) -/

/-- Settles O26: an effect's frame for the foreground, the frame of ENV's and HND's steps for the others. -/
theorem eachContextTouchesOnlyItsState : Obligations.EachContextTouchesOnlyItsState := by
  refine ⟨fun i s t hs h => ?_, fun u s t hu h => (block_frame hu h).1⟩
  obtain ⟨e, hi, he⟩ := exec_hasEffect i hs
  cases (he s (.refl s)).symm.trans h
  have hcontext : i.context = .handler → (e.apply s).fault = some ⟨.context (encode i), s.pc⟩ := fun hc => by
    rw [issuedBy_handler hi hc]; rfl
  exact ⟨apply_cnt e s, apply_run e s, apply_dstate e s, apply_hlevel e s, apply_hcap e s, apply_dur e s,
    rdy_of_apply_rdy, apply_ovr e s, apply_line e s, (apply_hact e s).trans hs, apply_en_ne hi, apply_pf_ne hi, hcontext⟩

/-- Settles O42: no effect of the foreground and no step of ENV or HND writes the configuration. -/
theorem noStepWritesTheConfiguration : Obligations.NoStepWritesTheConfiguration := by
  intro s t h
  obtain ⟨l, n, -, hen, hp⟩ := step_perform h
  by_cases hu : nextTurn s = .foreground
  · rw [hu] at hen hp
    obtain ⟨-, e, rfl, -⟩ := perform_foreground hen hp
    exact apply_cfg e _
  · obtain ⟨-, hcfg, -⟩ := block_frame hu hp
    exact hcfg

/-- Settles O45: after STOP every step is one of ENV or HND. -/
theorem stoppedForegroundStaysStopped : Obligations.StoppedForegroundStaysStopped := by
  intro s hs
  refine ⟨by simp [enabled, hs], fun t h => ?_, fun u hu => ?_⟩
  · obtain ⟨l, n, hf, hen, hp⟩ := step_perform h
    have hu : nextTurn s ≠ .foreground := fun hu => by simp [hu, enabled, hs] at hen
    obtain ⟨⟨hout, hpc, hregs, hstop, -⟩, -, hfault⟩ := block_frame hu hp
    exact ⟨hstop.trans hs, hpc, hregs, hout, hfault.trans hf, hu⟩
  · cases u with
    | foreground => exact absurd rfl hu
    | tick | edge | entry | body => rfl

/-! ### What no rule reads (O49) -/

/-- No agent reads what `change` changes: it leaves all that chooses a turn, and each step from a changed state is, seen
through `see`, the step from the state itself, seen through `see'`. -/
structure Unread (change see see' : State → State) : Prop where
  cfg_wf : ∀ s, (change s).cfg.wf = s.cfg.wf
  fault : ∀ s, (change s).fault = s.fault
  enabled : ∀ s, enabled (change s) = enabled s
  schedule : ∀ s, (change s).schedule = s.schedule
  turns : ∀ s, (change s).turns = s.turns
  takeTurn : ∀ s, takeTurn (change s) = change (takeTurn s)
  view : ∀ s, SameView s (change s)
  effect : ∀ (e : Effect) (s : State), see (e.apply (change s)) = see' (e.apply s)
  tick : ∀ s, see (tick (change s)) = see' (tick s)
  edge : ∀ draw s, see (edge draw (change s)) = see' (edge draw s)
  entry : ∀ s, see (entry (change s)) = see' (entry s)
  body : ∀ s, see (body (change s)) = see' (body s)

section Unread

variable {change see see' : State → State} (hc : Unread change see see')

include hc

theorem perform_unread {u : Turn} {s : State} (hen : enabled s u = true) :
    mapNext see (perform u (change s)) = mapNext see' (perform u s) := by
  cases u with
  | tick => exact congrArg Host.Outcome.next (hc.tick s)
  | edge draw => exact congrArg Host.Outcome.next (hc.edge draw s)
  | entry => exact congrArg Host.Outcome.next (hc.entry s)
  | body => exact congrArg Host.Outcome.next (hc.body s)
  | foreground =>
    obtain ⟨-, hh, -⟩ := foreground_enabled hen
    obtain ⟨e, -, he⟩ := foregroundStep_effect hh
    simp only [perform, he _ (hc.view s), he s (.refl s), mapNext, hc.effect]

theorem step_unread (s : State) : mapNext see (step (change s)) = mapNext see' (step s) := by
  have hnext : nextTurn (change s) = nextTurn s := by
    simp only [nextTurn, enabledTurns, hc.enabled, hc.schedule, hc.turns]
  simp only [step, hc.cfg_wf, hc.fault, hc.enabled, hnext, hc.takeTurn]
  split
  · split
    · rfl
    · split
      · refine perform_unread hc ?_
        rwa [enabled_takeTurn]
      · rfl
  · rfl

end Unread

theorem ghosts_unread (h : List Event) (o : Bool) :
    Unread (·.withGhosts h o) (·.withGhosts [] false) (·.withGhosts [] false) where
  cfg_wf _ := rfl
  fault _ := rfl
  enabled _ := rfl
  schedule _ := rfl
  turns _ := rfl
  takeTurn s := by unfold takeTurn; dsimp only [State.withGhosts]; split <;> rfl
  view _ := ⟨rfl, rfl, rfl, rfl, rfl, rfl, rfl, rfl, rfl, rfl, rfl, rfl⟩
  effect e _ := by cases e <;> rfl
  tick s := by
    cases hr : s.run with
    | true => rw [tick_running hr, tick_running (s := s.withGhosts h o) hr]; rfl
    | false => rw [tick_stopped hr, tick_stopped (s := s.withGhosts h o) hr]; rfl
  edge _ _ := rfl
  entry _ := rfl
  body s := by
    unfold body
    dsimp only [State.withGhosts, sampleLine]
    cases dispatch s.cfg.edgePolicy s.dstate s.line <;> rfl

theorem information_unread (p f : Option Nat) (a : Option Bool) :
    Unread (·.withInformation p f a) id (·.withInformation p f a) where
  cfg_wf _ := rfl
  fault _ := rfl
  enabled _ := rfl
  schedule _ := rfl
  turns _ := rfl
  takeTurn s := by unfold takeTurn; dsimp only [State.withInformation]; split <;> rfl
  view _ := ⟨rfl, rfl, rfl, rfl, rfl, rfl, rfl, rfl, rfl, rfl, rfl, rfl⟩
  effect e _ := by cases e <;> rfl
  tick s := by
    cases hr : s.run with
    | true => rw [tick_running hr, tick_running (s := s.withInformation p f a) hr]; rfl
    | false => rw [tick_stopped hr, tick_stopped (s := s.withInformation p f a) hr]; rfl
  edge _ _ := rfl
  entry _ := rfl
  body s := by
    unfold body
    dsimp only [State.withInformation, sampleLine]
    cases dispatch s.cfg.edgePolicy s.dstate s.line <;> rfl

theorem mapNext_id (r : Result) : mapNext id r = r := by cases r <;> rfl

/-- Settles O49: the ghosts and the informational parameters are unread, the latter also unwritten. -/
theorem monitorsAndInformationAreNeverRead : Obligations.MonitorsAndInformationAreNeverRead :=
  ⟨fun s h o => step_unread (ghosts_unread h o) s,
    fun s p f a => (mapNext_id _).symm.trans (step_unread (information_unread p f a) s)⟩

/-! ### The register file (O20) -/

/-- Settles O20: the two laws of reading after a write. -/
theorem registersReadWhatWasWritten : Obligations.RegistersReadWhatWasWritten :=
  fun f r _ v => ⟨read_write_self f r v, read_write_other f v⟩

end Sys2Proof.Proofs.StateFamily

/-! SUPPORT AND PROOFS of the family 20_memory.md: a program image as bytes. -/

namespace Sys2Proof.Proofs.MemoryFamily

open Sys2Proof Sys2Proof.Machine

/-- R54: the first byte is the low one. -/
theorem wordOfBytes_toNat (lo hi : Byte) : (wordOfBytes lo hi).toNat = lo.toNat + 256 * hi.toNat :=
  calc (wordOfBytes lo hi).toNat = hi.toNat <<< 8 ||| lo.toNat := BitVec.toNat_append hi lo
    _ = hi.toNat <<< 8 + lo.toNat := (Nat.shiftLeft_add_eq_or_of_lt lo.isLt _).symm
    _ = lo.toNat + 256 * hi.toNat := by rw [Nat.shiftLeft_eq]; omega

/-- The bytes of a word's image are its remainder and quotient by 256, which make the word again. -/
theorem wordOfBytes_bytes (w : CommandWord) : wordOfBytes (w.setWidth 8) ((w >>> 8).setWidth 8) = w := by
  apply BitVec.eq_of_toNat_eq
  have hw := w.isLt
  simp only [wordOfBytes_toNat, BitVec.toNat_setWidth, BitVec.toNat_ushiftRight, Nat.shiftRight_eq_div_pow]
  omega

/-- An image decodes as its first word does, and what follows the word is left (R54, R82). -/
theorem decodeBytes_bytesOfWord_append (w : CommandWord) (rest : List Byte) :
    decodeBytes (bytesOfWord w ++ rest) = (decodeWord w).map (·, rest) := by
  simp only [bytesOfWord, List.cons_append, List.nil_append, decodeBytes, wordOfBytes_bytes]
  cases decodeWord w with
  | ok | error => rfl

/-- Settles O6: a word and its two bytes determine each other, and the image's decoder reads the word they make. -/
theorem programImagesAreLittleEndian : Obligations.ProgramImagesAreLittleEndian := by
  refine ⟨wordOfBytes_toNat, fun w => ⟨_, _, rfl, wordOfBytes_bytes w⟩, fun w rest i h => ?_, fun w rest e h => ?_,
    fun _ => rfl⟩
  · rw [decodeBytes_bytesOfWord_append, h, Except.map]
  · rw [decodeBytes_bytesOfWord_append, h, Except.map]

end Sys2Proof.Proofs.MemoryFamily

/-! SUPPORT AND PROOFS of the family 30_encoding.md. Decoding inverts the encoder because a word is the sum of its
fields (O1, O2); the rows of the opcode table are then tied to the decoder by their masks one way and by `RowSelects` the other
(O3), and the three kinds of words follow (O4). -/

namespace Sys2Proof.Proofs.EncodingFamily

open Sys2Proof Sys2Proof.Machine Sys2Proof.Laws

/-! ### Fields -/

theorem number_lt (r : Reg) : r.number < 4 := by cases r <;> decide

@[simp] theorem ofField_number (r : Reg) : Reg.ofField r.number = r := by cases r <;> rfl

theorem number_ofField : ∀ {n : Nat}, n < 4 → (Reg.ofField n).number = n := by decide

theorem bits_lt (w : CommandWord) (hi lo : Nat) : bits w hi lo < 2 ^ (hi + 1 - lo) := Nat.mod_lt _ (Nat.two_pow_pos _)

/-- The register a 2-bit field selects has the field as its number. -/
theorem number_ofField_bits (w : CommandWord) (hi lo : Nat) (h : hi + 1 - lo = 2) :
    (Reg.ofField (bits w hi lo)).number = bits w hi lo :=
  number_ofField (by simpa [h] using bits_lt w hi lo)

theorem bits_and (a b : CommandWord) (hi lo : Nat) : bits (a &&& b) hi lo = bits a hi lo &&& bits b hi lo := by
  simp only [bits, BitVec.toNat_and, Nat.and_div_two_pow, Nat.and_mod_two_pow]

/-- A field that the mask covers is read off the pattern. -/
theorem bits_eq_of_masked {w m p : CommandWord} (hi lo : Nat) (h : w &&& m = p)
    (hm : bits m hi lo = 2 ^ (hi + 1 - lo) - 1) : bits w hi lo = bits p hi lo := by
  rw [← h, bits_and, hm, Nat.and_two_pow_sub_one_of_lt_two_pow (bits_lt w hi lo)]

/-- A word is laid out from any fields that add up to it. -/
theorem layOut_eq {w : CommandWord} {op at9 at7 low : Nat} (h : op * 2048 + at9 * 512 + at7 * 128 + low = w.toNat) :
    layOut op at9 at7 low = w := by
  rw [layOut, h, BitVec.ofNat_toNat, BitVec.setWidth_eq]

theorem byteField_signedByte {v : Nat} (h : v < 256) : byteField (signedByte v) = v := by
  unfold byteField signedByte; split <;> omega

theorem offsetFits_iff {off : Int} : offsetFits off = true ↔ -128 ≤ off ∧ off ≤ 127 := by simp [offsetFits]

theorem offsetFits_signedByte {v : Nat} (h : v < 256) : offsetFits (signedByte v) = true := by
  rw [offsetFits_iff]; unfold signedByte; split <;> omega

theorem signedByte_byteField {off : Int} (h : offsetFits off = true) : signedByte (byteField off) = off := by
  rw [offsetFits_iff] at h
  unfold byteField signedByte; split <;> omega

/-! ### A word that decodes is the encoding of what it decodes to -/

/-- The instruction is well-formed and the word is its encoding. -/
def Encodes (i : Instr) (w : CommandWord) : Prop := i.wf = true ∧ encode i = w

/-- An instruction laid out from fields that add up to a word is encoded by that word. -/
theorem Encodes.of_fields {i : Instr} {w : CommandWord} {op at9 at7 low : Nat} (h : Encodes i (layOut op at9 at7 low))
    (hw : op * 2048 + at9 * 512 + at7 * 128 + low = w.toNat) : Encodes i w :=
  ⟨h.1, h.2.trans (layOut_eq hw)⟩

section Decoded

variable {w : CommandWord} {op : Nat} {j : Instr}

theorem formatN_ok {i : Instr} (hop : opcode w = op) (hi : Encodes i (layOut op 0 0 0))
    (h : formatN w i = .ok j) : Encodes j w := by
  unfold formatN at h
  split at h <;> cases h
  refine hi.of_fields ?_
  simp only [opcode, bits] at *
  omega

theorem formatR1_ok {f : Reg → Instr} (hop : opcode w = op)
    (hf : ∀ rd, Encodes (f rd) (layOut op rd.number 0 0)) (h : formatR1 w f = .ok j) : Encodes j w := by
  unfold formatR1 at h
  split at h <;> cases h
  refine (hf _).of_fields ?_
  rw [number_ofField_bits w 10 9 rfl]
  simp only [opcode, bits] at *
  omega

theorem formatR2_ok {f : Reg → Reg → Instr} (hop : opcode w = op)
    (hf : ∀ rd rs, Encodes (f rd rs) (layOut op rd.number rs.number 0))
    (h : formatR2 w f = .ok j) : Encodes j w := by
  unfold formatR2 at h
  split at h <;> cases h
  refine (hf _ _).of_fields ?_
  rw [number_ofField_bits w 10 9 rfl, number_ofField_bits w 8 7 rfl]
  simp only [opcode, bits] at *
  omega

theorem formatRS_ok {f : Reg → Instr} (hop : opcode w = op)
    (hf : ∀ rs, Encodes (f rs) (layOut op 0 rs.number 0)) (h : formatRS w f = .ok j) : Encodes j w := by
  unfold formatRS at h
  split at h <;> cases h
  refine (hf _).of_fields ?_
  rw [number_ofField_bits w 8 7 rfl]
  simp only [opcode, bits] at *
  omega

theorem formatI_ok {f : Reg → Nat → Instr} (hop : opcode w = op)
    (hf : ∀ ra v, v < 256 → Encodes (f ra v) (layOut op ra.number 0 v))
    (h : formatI w f = .ok j) : Encodes j w := by
  unfold formatI at h
  split at h <;> cases h
  refine (hf _ _ (bits_lt w 7 0)).of_fields ?_
  rw [number_ofField_bits w 10 9 rfl]
  simp only [opcode, bits] at *
  omega

theorem formatJ_ok {f : Nat → Instr} (hop : opcode w = op)
    (hf : ∀ v, v < 256 → Encodes (f v) (layOut op 0 0 v)) (h : formatJ w f = .ok j) : Encodes j w := by
  unfold formatJ at h
  split at h <;> cases h
  refine (hf _ (bits_lt w 7 0)).of_fields ?_
  simp only [opcode, bits] at *
  omega

end Decoded

/-- The three branching operations lay out the byte their offset is read from. -/
theorem branch_encodes {v : Nat} (h : v < 256) (ra : Reg) :
    Encodes (.bz ra (signedByte v)) (layOut 0x12 ra.number 0 v) ∧
      Encodes (.bnz ra (signedByte v)) (layOut 0x13 ra.number 0 v) ∧
      Encodes (.jmp (signedByte v)) (layOut 0x14 0 0 v) := by
  simp [Encodes, Instr.wf, encode, offsetFits_signedByte h, byteField_signedByte h]

theorem ldi_encodes (rd : Reg) {v : Nat} (h : v < 256) : Encodes (.ldi rd v) (layOut 0x11 rd.number 0 v) :=
  ⟨decide_eq_true (Nat.le_of_lt_succ h), by rw [encode, Nat.mod_eq_of_lt h]⟩

/-- Settles O2: row by row of the decoder, the fields of the format and its zero reserved bits add up to the word. -/
theorem decodedWordsEncodeBack : Obligations.DecodedWordsEncodeBack := by
  intro w i h
  unfold decodeWord at h
  split at h
  -- The cases are the decoder's rows in order: format R1 at opcodes 0x0B and 0x0D, and so on.
  case h_11 | h_13 => exact formatR1_ok ‹_› (fun _ => ⟨rfl, rfl⟩) h
  case h_14 | h_15 => exact formatR2_ok ‹_› (fun _ _ => ⟨rfl, rfl⟩) h
  case h_16 => exact formatRS_ok ‹_› (fun _ => ⟨rfl, rfl⟩) h
  case h_17 => exact formatI_ok ‹_› (fun rd _ hv => ldi_encodes rd hv) h
  case h_18 => exact formatI_ok ‹_› (fun ra _ hv => (branch_encodes hv ra).1) h
  case h_19 => exact formatI_ok ‹_› (fun ra _ hv => (branch_encodes hv ra).2.1) h
  case h_20 => exact formatJ_ok ‹_› (fun _ hv => (branch_encodes hv .r0).2.2) h
  case h_22 => cases h
  all_goals exact formatN_ok ‹_› ⟨rfl, rfl⟩ h

/-! ### Every well-formed operation is what its word decodes to -/

section LaidOut

variable {op v : Nat} (hop : op < 32) (hv : v < 256)

theorem bits_layOut {a b : Nat} (hi lo : Nat) (h : op * 2048 + a * 512 + b * 128 + v < 65536) :
    bits (layOut op a b v) hi lo = (op * 2048 + a * 512 + b * 128 + v) / 2 ^ lo % 2 ^ (hi + 1 - lo) := by
  rw [bits, layOut, BitVec.toNat_ofNat, Nat.mod_eq_of_lt h]

include hop hv

theorem formatI_layOut (ra : Reg) :
    opcode (layOut op ra.number 0 v) = op ∧ ∀ f, formatI (layOut op ra.number 0 v) f = .ok (f ra v) := by
  have hra := number_lt ra
  have hb := fun hi lo => bits_layOut (op := op) (a := ra.number) (b := 0) (v := v) hi lo (by omega)
  have h8 : bits (layOut op ra.number 0 v) 8 8 = 0 := by rw [hb]; omega
  have h9 : bits (layOut op ra.number 0 v) 10 9 = ra.number := by rw [hb]; omega
  have h0 : bits (layOut op ra.number 0 v) 7 0 = v := by rw [hb]; omega
  refine ⟨by rw [opcode, hb]; omega, fun f => ?_⟩
  rw [formatI, if_pos h8, h9, h0, ofField_number]

theorem formatJ_layOut : opcode (layOut op 0 0 v) = op ∧ ∀ f, formatJ (layOut op 0 0 v) f = .ok (f v) := by
  have hb := fun hi lo => bits_layOut (op := op) (a := 0) (b := 0) (v := v) hi lo (by omega)
  have h8 : bits (layOut op 0 0 v) 10 8 = 0 := by rw [hb]; omega
  have h0 : bits (layOut op 0 0 v) 7 0 = v := by rw [hb]; omega
  refine ⟨by rw [opcode, hb]; omega, fun f => ?_⟩
  rw [formatJ, if_pos h8, h0]

end LaidOut

/-- Settles O1: an operation with no immediate has a handful of words; an immediate is read off the low byte. -/
theorem encodedOperationsDecodeToThemselves : Obligations.EncodedOperationsDecodeToThemselves := by
  intro i hi
  cases i with
  | rdytst rd | durrd rd | outset rd => cases rd <;> rfl
  | scale rd rs | cmpth rd rs => cases rd <;> cases rs <;> rfl
  | ldi rd imm =>
    have hv : imm < 256 := Nat.lt_succ_of_le (of_decide_eq_true hi)
    obtain ⟨hop, hf⟩ := formatI_layOut (op := 0x11) (by decide) hv rd
    simp only [encode, Nat.mod_eq_of_lt hv, decodeWord, hop, hf]
  | bz ra off =>
    obtain ⟨hop, hf⟩ := formatI_layOut (op := 0x12) (by decide) (RowSelects.byteField_lt off) ra
    simp only [encode, decodeWord, hop, hf, signedByte_byteField hi]
  | bnz ra off =>
    obtain ⟨hop, hf⟩ := formatI_layOut (op := 0x13) (by decide) (RowSelects.byteField_lt off) ra
    simp only [encode, decodeWord, hop, hf, signedByte_byteField hi]
  | jmp off =>
    obtain ⟨hop, hf⟩ := formatJ_layOut (op := 0x14) (by decide) (RowSelects.byteField_lt off)
    simp only [encode, decodeWord, hop, hf, signedByte_byteField hi]
  | _ => rfl

/-! ### The rows of the opcode table -/

/-- The family `RowSelects` as one statement over the operations. -/
theorem rowSelects : ∀ i : Instr, RowSelects.Statement i
  | .tstart => RowSelects.tstart
  | .tstop => RowSelects.tstop
  | .tread => RowSelects.tread
  | .treset => RowSelects.treset
  | .esample => RowSelects.esample
  | .edisable => RowSelects.edisable
  | .eenable => RowSelects.eenable
  | .eclrpend => RowSelects.eclrpend
  | .rdyset => RowSelects.rdyset
  | .rdyclr => RowSelects.rdyclr
  | .rdytst rd => RowSelects.rdytst rd
  | .durwr => RowSelects.durwr
  | .durrd rd => RowSelects.durrd rd
  | .scale rd rs => RowSelects.scale rd rs
  | .cmpth rd rs => RowSelects.cmpth rd rs
  | .outset rs => RowSelects.outset rs
  | .ldi rd imm => RowSelects.ldi rd imm
  | .bz ra off => RowSelects.bz ra off
  | .bnz ra off => RowSelects.bnz ra off
  | .jmp off => RowSelects.jmp off
  | .stop => RowSelects.stop

/-- The row of a decoded operation's mnemonic selects the word. -/
theorem decoded_selected {w : CommandWord} {i : Instr} (h : decodeWord w = .ok i) :
    ∃ r ∈ opcodeTable, r.mnemonic = i.mnemonic ∧ w &&& r.mask = r.pattern := by
  obtain ⟨hwf, rfl⟩ := decodedWordsEncodeBack w i h
  exact rowSelects i hwf

/-- No two rows have one mnemonic. -/
theorem row_eq_of_mnemonic_eq :
    ∀ r ∈ opcodeTable, ∀ r' ∈ opcodeTable, r.mnemonic = r'.mnemonic → r = r' := by decide

/-- Every word the row selects decodes to an operation with the row's mnemonic. -/
def RowDecodes (r : OpcodeRow) : Prop :=
  ∀ w : CommandWord, w &&& r.mask = r.pattern → ∃ i, decodeWord w = .ok i ∧ i.mnemonic = r.mnemonic

/-- A row whose mask covers the word selects its pattern only. -/
theorem rowDecodes_full {name : String} {p : CommandWord} (i : Instr) (hd : decodeWord p = .ok i)
    (hm : i.mnemonic = name) : RowDecodes ⟨name, 0xFFFF, p⟩ := by
  intro w hw
  have : w = p := (BitVec.and_allOnes (x := w)).symm.trans hw
  exact ⟨i, this ▸ hd, hm⟩

/-- A row whose mask covers the opcode field decodes by the format of its opcode. -/
theorem rowDecodes_of_format {name : String} {mask p : CommandWord} (format : CommandWord → Except DecodeError Instr)
    (hmask : bits mask 15 11 = 31) (hd : ∀ w, opcode w = opcode p → decodeWord w = format w)
    (hok : ∀ w, w &&& mask = p → ∃ i, format w = .ok i ∧ i.mnemonic = name) : RowDecodes ⟨name, mask, p⟩ := by
  intro w hw
  rw [hd w (bits_eq_of_masked 15 11 hw hmask)]
  exact hok w hw

theorem rowDecodes_R1 {name : String} {p : CommandWord} (f : Reg → Instr) (hp : bits p 8 0 = 0)
    (hd : ∀ w, opcode w = opcode p → decodeWord w = formatR1 w f) (hm : ∀ rd, (f rd).mnemonic = name) :
    RowDecodes ⟨name, 0xF9FF, p⟩ :=
  rowDecodes_of_format _ rfl hd fun _ hw => ⟨_, if_pos ((bits_eq_of_masked 8 0 hw rfl).trans hp), hm _⟩

theorem rowDecodes_R2 {name : String} {p : CommandWord} (f : Reg → Reg → Instr) (hp : bits p 6 0 = 0)
    (hd : ∀ w, opcode w = opcode p → decodeWord w = formatR2 w f) (hm : ∀ rd rs, (f rd rs).mnemonic = name) :
    RowDecodes ⟨name, 0xF87F, p⟩ :=
  rowDecodes_of_format _ rfl hd fun _ hw => ⟨_, if_pos ((bits_eq_of_masked 6 0 hw rfl).trans hp), hm _ _⟩

theorem rowDecodes_RS {name : String} {p : CommandWord} (f : Reg → Instr) (hp : bits p 10 9 = 0 ∧ bits p 6 0 = 0)
    (hd : ∀ w, opcode w = opcode p → decodeWord w = formatRS w f) (hm : ∀ rs, (f rs).mnemonic = name) :
    RowDecodes ⟨name, 0xFE7F, p⟩ :=
  rowDecodes_of_format _ rfl hd fun _ hw =>
    ⟨_, if_pos ⟨(bits_eq_of_masked 10 9 hw rfl).trans hp.1, (bits_eq_of_masked 6 0 hw rfl).trans hp.2⟩, hm _⟩

theorem rowDecodes_I {name : String} {p : CommandWord} (f : Reg → Nat → Instr) (hp : bits p 8 8 = 0)
    (hd : ∀ w, opcode w = opcode p → decodeWord w = formatI w f) (hm : ∀ ra v, (f ra v).mnemonic = name) :
    RowDecodes ⟨name, 0xF900, p⟩ :=
  rowDecodes_of_format _ rfl hd fun _ hw => ⟨_, if_pos ((bits_eq_of_masked 8 8 hw rfl).trans hp), hm _ _⟩

theorem rowDecodes_J {name : String} {p : CommandWord} (f : Nat → Instr) (hp : bits p 10 8 = 0)
    (hd : ∀ w, opcode w = opcode p → decodeWord w = formatJ w f) (hm : ∀ v, (f v).mnemonic = name) :
    RowDecodes ⟨name, 0xFF00, p⟩ :=
  rowDecodes_of_format _ rfl hd fun _ hw => ⟨_, if_pos ((bits_eq_of_masked 10 8 hw rfl).trans hp), hm _⟩

theorem opcodeTable_rowDecodes : ∀ r ∈ opcodeTable, RowDecodes r := by
  simp only [opcodeTable, List.cons_append, List.nil_append, List.forall_mem_cons]
  refine ⟨rowDecodes_full .tstart rfl rfl, rowDecodes_full .tstop rfl rfl, rowDecodes_full .tread rfl rfl,
    rowDecodes_full .treset rfl rfl, rowDecodes_full .esample rfl rfl, rowDecodes_full .edisable rfl rfl,
    rowDecodes_full .eenable rfl rfl, rowDecodes_full .eclrpend rfl rfl, rowDecodes_full .rdyset rfl rfl,
    rowDecodes_full .rdyclr rfl rfl,
    rowDecodes_R1 .rdytst rfl ?_ fun _ => rfl,
    rowDecodes_full .durwr rfl rfl,
    rowDecodes_R1 .durrd rfl ?_ fun _ => rfl,
    rowDecodes_R2 .scale rfl ?_ fun _ _ => rfl,
    rowDecodes_R2 .cmpth rfl ?_ fun _ _ => rfl,
    rowDecodes_RS .outset ⟨rfl, rfl⟩ ?_ fun _ => rfl,
    rowDecodes_I .ldi rfl ?_ fun _ _ => rfl,
    rowDecodes_I (fun ra v => .bz ra (signedByte v)) rfl ?_ fun _ _ => rfl,
    rowDecodes_I (fun ra v => .bnz ra (signedByte v)) rfl ?_ fun _ _ => rfl,
    rowDecodes_J (fun v => .jmp (signedByte v)) rfl ?_ fun _ => rfl,
    rowDecodes_full .stop rfl rfl, List.forall_mem_nil _⟩
  all_goals
    intro w hop
    rw [decodeWord, hop]
    rfl

/-- Settles O3: a selected word decodes by its row; a decoded word is selected by the one row of its mnemonic. -/
theorem wordsDecodeByTheirRow : Obligations.WordsDecodeByTheirRow := by
  intro r hr w
  refine ⟨fun ⟨i, hi, hm⟩ => ?_, opcodeTable_rowDecodes r hr w⟩
  obtain ⟨r', hr', hm', hw⟩ := decoded_selected hi
  rwa [row_eq_of_mnemonic_eq r' hr' r hr (hm'.trans hm)] at hw

/-! ### The three kinds of words -/

/-- A format accepts a word or finds a reserved bit set: it is one check (R71-R76). -/
theorem check_cases (c : Prop) [Decidable c] (i : Instr) :
    (∃ j, (if c then .ok i else .error .reservedField : Except DecodeError Instr) = .ok j) ∨
      (if c then .ok i else .error .reservedField : Except DecodeError Instr) = .error .reservedField := by
  split
  · exact .inl ⟨i, rfl⟩
  · exact .inr rfl

/-- The opcode alone says whether a word is illegal; any other word decodes or has a reserved bit set (R80). -/
theorem decodeWord_cases (w : CommandWord) :
    ((opcode w = 0 ∨ 0x16 ≤ opcode w) ∧ decodeWord w = .error .illegalOpcode) ∨
      ((1 ≤ opcode w ∧ opcode w ≤ 0x15) ∧
        ((∃ i, decodeWord w = .ok i) ∨ decodeWord w = .error .reservedField)) := by
  unfold decodeWord
  split
  case h_22 => exact .inl ⟨by simp only [imp_false] at *; omega, rfl⟩
  all_goals exact .inr ⟨by omega, check_cases _ _⟩

/-- A word decodes exactly when a row selects it. -/
theorem decodes_iff_selected (w : CommandWord) :
    (∃ i, decodeWord w = .ok i) ↔ ∃ r ∈ opcodeTable, r.selects w = true := by
  constructor
  · rintro ⟨i, hi⟩
    obtain ⟨r, hr, -, hw⟩ := decoded_selected hi
    exact ⟨r, hr, beq_iff_eq.mpr hw⟩
  · rintro ⟨r, hr, hw⟩
    obtain ⟨i, hi, -⟩ := opcodeTable_rowDecodes r hr w (beq_iff_eq.mp hw)
    exact ⟨i, hi⟩

/-- A decoded operation has the mnemonic of whatever row selects the word. -/
theorem mnemonic_eq_of_selected {w : CommandWord} {i : Instr} (hi : decodeWord w = .ok i) {r : OpcodeRow}
    (hr : r ∈ opcodeTable) (hw : r.selects w = true) : i.mnemonic = r.mnemonic := by
  obtain ⟨j, hj, hm⟩ := opcodeTable_rowDecodes r hr w (beq_iff_eq.mp hw)
  cases hi.symm.trans hj
  exact hm

/-- At most one row selects a word. -/
theorem selected_unique {w : CommandWord} {r r' : OpcodeRow} (hr : r ∈ opcodeTable) (hr' : r' ∈ opcodeTable)
    (hw : r.selects w = true) (hw' : r'.selects w = true) : r = r' := by
  obtain ⟨i, hi⟩ := (decodes_iff_selected w).mpr ⟨r, hr, hw⟩
  exact row_eq_of_mnemonic_eq r hr r' hr'
    ((mnemonic_eq_of_selected hi hr hw).symm.trans (mnemonic_eq_of_selected hi hr' hw'))

/-- A word no row selects does not decode. -/
theorem decodeWord_of_unselected {w : CommandWord} (h : ∀ r ∈ opcodeTable, r.selects w = false) :
    ∃ e, decodeWord w = .error e := by
  cases hd : decodeWord w with
  | error e => exact ⟨e, rfl⟩
  | ok i =>
    obtain ⟨r, hr, hw⟩ := (decodes_iff_selected w).mp ⟨i, hd⟩
    cases (h r hr).symm.trans hw

/-- A fetched word that does not decode raises F_ILLEGAL with the word (R191, R210). -/
theorem foregroundStep_illegal {s : State} {w : CommandWord} {e : DecodeError} (hf : s.cfg.prog[s.pc]? = some w)
    (hd : decodeWord w = .error e) : foregroundStep s = .next (s.raise (.illegal w)) := by
  simp only [foregroundStep, fetchWord, hf, hd, trap]

theorem decodeWord_illegal_iff (w : CommandWord) :
    decodeWord w = .error .illegalOpcode ↔ opcode w = 0 ∨ 0x16 ≤ opcode w := by
  obtain ⟨hop, hd⟩ | ⟨hop, ⟨i, hd⟩ | hd⟩ := decodeWord_cases w
  · exact iff_of_true hd hop
  · exact iff_of_false (by simp [hd]) (by omega)
  · exact iff_of_false (by simp [hd]) (by omega)

theorem decodeWord_reserved_iff (w : CommandWord) :
    decodeWord w = .error .reservedField ↔
      (1 ≤ opcode w ∧ opcode w ≤ 0x15) ∧ ∀ r ∈ opcodeTable, r.selects w = false := by
  constructor
  · intro h
    obtain ⟨-, hd⟩ | ⟨hop, -⟩ := decodeWord_cases w
    · cases h.symm.trans hd
    · refine ⟨hop, fun r hr => Bool.eq_false_iff.mpr fun hw => ?_⟩
      obtain ⟨i, hi⟩ := (decodes_iff_selected w).mpr ⟨r, hr, hw⟩
      cases h.symm.trans hi
  · rintro ⟨hop, hsel⟩
    obtain ⟨e, he⟩ := decodeWord_of_unselected hsel
    obtain ⟨hop', -⟩ | ⟨-, ⟨i, hi⟩ | hd⟩ := decodeWord_cases w
    · omega
    · cases hi.symm.trans he
    · exact hd

theorem decodeWord_ne_truncated (w : CommandWord) : decodeWord w ≠ .error .truncated := by
  obtain ⟨-, hd⟩ | ⟨-, ⟨i, hd⟩ | hd⟩ := decodeWord_cases w <;> simp [hd]

/-- Settles O4: each clause is one of the lemmas above, at the word. -/
theorem everyWordIsOneOfThreeThings : Obligations.EveryWordIsOneOfThreeThings := fun w =>
  ⟨decodes_iff_selected w, fun _ hr _ hr' hw hw' => selected_unique hr hr' hw hw',
    fun _ hi _ hr hw => mnemonic_eq_of_selected hi hr hw, decodeWord_illegal_iff w, decodeWord_reserved_iff w,
    decodeWord_ne_truncated w, fun _ hf hsel => (decodeWord_of_unselected hsel).elim fun _ hd =>
      foregroundStep_illegal hf hd⟩

/-! ### The pseudo-instructions -/

/-- Settles O7: POLL's two words hold the register at bit 9, whichever of the four it is. -/
theorem pseudoInstructionsExpandToTheirWords : Obligations.PseudoInstructionsExpandToTheirWords := by
  refine ⟨rfl, rfl, fun rd => ?_, rfl, fun _ => rfl⟩
  cases rd <;> rfl

end Sys2Proof.Proofs.EncodingFamily

/-! SUPPORT AND PROOFS of the family 41_pulse_timer.md. An operation of the timer is its effect in the handler and F_CONTEXT
in the foreground; a running counter is the number of its ticks, modulo 2^W. -/

namespace Sys2Proof.Proofs.PulseTimerFamily

open Sys2Proof Sys2Proof.Machine Sys2Proof.Laws Sys2Proof.Proofs.StateFamily

/-! ### Operations of the handler alone -/

theorem handlerOnly_in_handler {s : State} (hs : s.hact = true) (i : Instr) (f : State → State) :
    handlerOnly i f s = .next (f s) :=
  if_pos hs

theorem handlerOnly_in_foreground {s : State} (hs : s.hact = false) (i : Instr) (f : State → State) :
    handlerOnly i f s = .next (s.raise (.context (encode i))) :=
  if_neg (ne_true_of_eq_false hs)

/-! ### Ticks of a running counter -/

/-- Ticks modulo 2^W add up, and none of them stops the counter (R100). -/
theorem ticks_running {s : State} (hr : s.run = true) (hc : s.cnt < s.cfg.modulus) (n : Nat) :
    (ticks n s).run = true ∧ (ticks n s).cnt = (s.cnt + n) % s.cfg.modulus := by
  induction n with
  | zero => exact ⟨hr, (Nat.mod_eq_of_lt hc).symm⟩
  | succ n ih =>
    obtain ⟨hrun, hcnt⟩ := ih
    obtain ⟨-, hcfg, -⟩ := ticks_frame n s
    rw [ticks_succ, tick_running hrun]
    refine ⟨hrun, ?_⟩
    calc ((ticks n s).cnt + 1) % (ticks n s).cfg.modulus
        = ((s.cnt + n) % s.cfg.modulus + 1) % s.cfg.modulus := by rw [hcfg, hcnt]
      _ = (s.cnt + (n + 1)) % s.cfg.modulus := Nat.mod_add_mod _ _ _

/-- Settles O51: the start leaves a running counter at 0, and the ticks leave the handler active for the read. -/
theorem timerCountsItsTicks : Obligations.TimerCountsItsTicks := by
  intro n s hs
  obtain ⟨-, -, -, hhact, -⟩ := ticks_frame n (startTimer s)
  obtain ⟨-, hcnt⟩ := ticks_running (s := startTimer s) rfl (Nat.two_pow_pos s.cfg.width) n
  refine ⟨startTimer s, readTimer (ticks n (startTimer s)), handlerOnly_in_handler hs _ _,
    handlerOnly_in_handler (hhact.trans hs) _ _, ?_⟩
  calc (ticks n (startTimer s)).cnt = (0 + n) % 2 ^ s.cfg.width := hcnt
    _ = n % 2 ^ s.cfg.width := by rw [Nat.zero_add]

/-- Settles O8: the four are handler-only operations, and of what BODY can do a start alone writes the counter. -/
theorem timerOperations : Obligations.TimerOperations := by
  refine ⟨⟨rfl, rfl, rfl, rfl⟩, fun s hs => ?_, fun s hs => ?_, fun s => ?_⟩
  · exact ⟨handlerOnly_in_handler hs _ _, handlerOnly_in_handler hs _ _, handlerOnly_in_handler hs _ _,
      handlerOnly_in_handler hs _ _⟩
  · exact ⟨handlerOnly_in_foreground hs .tstart _, handlerOnly_in_foreground hs .tstop _,
      handlerOnly_in_foreground hs .tread _, handlerOnly_in_foreground hs .treset _⟩
  · obtain hstart | hcapture | hignore := body_cases s
    · rw [hstart]; exact .inr ⟨rfl, rfl, rfl⟩
    · rw [hcapture]; exact .inl rfl
    · rw [hignore]; exact .inl rfl

/-- Settles O30: the fault alone gates TICK, and its effect is one of the two of `tick`. -/
theorem tickStep : Obligations.TickStep := fun _ =>
  ⟨Option.isNone_iff_eq_none, fun hr => congrArg Host.Outcome.next (tick_running hr),
    fun hr => congrArg Host.Outcome.next (tick_stopped hr)⟩

end Sys2Proof.Proofs.PulseTimerFamily

/-! SUPPORT AND PROOFS of the family 42_edge_decoder.md. BODY is one of three record updates, chosen by the table of R132;
in a window with no edge HND has only the steps that are already owed, so a clean pulse's window holds no others. -/

namespace Sys2Proof.Proofs.EdgeDecoderFamily

open Sys2Proof Sys2Proof.Machine Sys2Proof.Laws Sys2Proof.Proofs.StateFamily Sys2Proof.Proofs.PulseTimerFamily

/-! ### The table of R132 -/

theorem dispatch_start_iff (p : EdgePolicy) (d : DecoderState) (level : Bool) :
    dispatch p d level = .start ↔ level = true ∧ (p = .level ∨ d = .idle) := by
  cases p <;> cases d <;> cases level <;> decide

theorem dispatch_capture_iff (p : EdgePolicy) (d : DecoderState) (level : Bool) :
    dispatch p d level = .capture ↔ level = false ∧ (p = .level ∨ d = .timing) := by
  cases p <;> cases d <;> cases level <;> decide

theorem dispatch_ignore_iff (p : EdgePolicy) (d : DecoderState) (level : Bool) :
    dispatch p d level = .ignore ↔
      p = .strict ∧ (level = true ∧ d = .timing ∨ level = false ∧ d = .idle) := by
  cases p <;> cases d <;> cases level <;> decide

/-! ### BODY, action by action (R131-R135) -/

theorem body_of_dispatch {s : State} {a : Action} (h : dispatch s.cfg.edgePolicy s.dstate s.line = a) :
    body s = (act a (sampleLine s)).leaveHandler :=
  congrArg (fun a => (act a (sampleLine s)).leaveHandler) h

theorem body_start {s : State} (h : dispatch s.cfg.edgePolicy s.dstate s.line = .start) :
    body s = { s with
      hlevel := s.line, cnt := 0, run := true, dstate := .timing, hact := false, hist := s.hist ++ [.start] } :=
  body_of_dispatch h

theorem captureOps_eq (s : State) :
    captureOps s = { s with
      run := false, hcap := s.cnt, dur := some s.cnt, ovr := s.ovr || s.rdy, rdy := true, en := false
      hist := s.hist ++ [.disarm] } :=
  rfl

theorem body_capture {s : State} (h : dispatch s.cfg.edgePolicy s.dstate s.line = .capture) :
    body s = { s with
      hlevel := s.line, run := false, hcap := s.cnt, dur := some s.cnt, ovr := s.ovr || s.rdy, rdy := true
      en := false, dstate := .idle, hact := false, hist := s.hist ++ [.disarm, .capture s.cnt] } := by
  simp [body_of_dispatch h, act, captureAction, captureOps_eq, sampleLine, State.setDstate, State.emit,
    State.leaveHandler]

theorem body_ignore {s : State} (h : dispatch s.cfg.edgePolicy s.dstate s.line = .ignore) :
    body s = { s with hlevel := s.line, hact := false, hist := s.hist ++ [.ignored s.dstate s.line] } :=
  body_of_dispatch h

theorem body_enabled_iff (s : State) : enabled s .body = true ↔ s.fault = none ∧ s.hact = true := by
  simp [enabled]

theorem entry_enabled_iff (s : State) :
    enabled s .entry = true ↔ s.fault = none ∧ s.hact = false ∧ s.en = true ∧ s.pf = true := by
  simp [enabled, and_assoc]

/-! ### BODY as its listing (O34) -/

theorem execAll_cons {i : Instr} {is : List Instr} {s t : State} (h : exec i s = .next t) :
    execAll (i :: is) s = execAll is t := by
  rw [execAll, h, andThen]

/-- In the handler a micro-operation of a listing has its effect, and the rest of the listing follows. -/
theorem execAll_handlerOnly {i : Instr} {is : List Instr} {f : State → State} {s : State} (hs : s.hact = true)
    (hi : exec i s = handlerOnly i f s) : execAll (i :: is) s = execAll is (f s) :=
  execAll_cons (hi.trans (handlerOnly_in_handler hs i f))

theorem execAll_esample {s : State} (hs : s.hact = true) (is : List Instr) :
    execAll (.esample :: is) s = execAll is (sampleLine s) :=
  execAll_handlerOnly hs rfl

/-- The micro-operations of CAPTURE, run one by one in the handler, are the effects `captureOps` composes. -/
theorem execAll_capture {s : State} (hs : s.hact = true) :
    execAll [.tstop, .tread, .durwr, .rdyset, .edisable] s = .next (captureOps s) :=
  calc execAll [.tstop, .tread, .durwr, .rdyset, .edisable] s
      = execAll [.tread, .durwr, .rdyset, .edisable] (stopTimer s) := execAll_handlerOnly hs rfl
    _ = execAll [.durwr, .rdyset, .edisable] (readTimer (stopTimer s)) := execAll_handlerOnly hs rfl
    _ = execAll [.rdyset, .edisable] (writeDuration (readTimer (stopTimer s))) := execAll_handlerOnly hs rfl
    _ = execAll [.edisable] (publish (writeDuration (readTimer (stopTimer s)))) := execAll_handlerOnly hs rfl
    _ = .next (captureOps s) := execAll_cons (if_pos hs)

/-- Settles O34: the listing runs to the state BODY's action leaves before the decoder state, the event and the return. -/
theorem bodyRunsItsListing : Obligations.BodyRunsItsListing := by
  intro s hs
  refine ⟨fun h => ⟨startTimer (sampleLine s), ?_, body_of_dispatch h⟩,
    fun h => ⟨captureOps (sampleLine s), ?_, body_of_dispatch h⟩,
    fun h => ⟨sampleLine s, execAll_esample hs [], body_of_dispatch h⟩⟩
  · exact (execAll_esample hs _).trans (execAll_handlerOnly hs rfl)
  · exact (execAll_esample hs _).trans (execAll_capture hs)

/-! ### Timing (O50) -/

/-- From Timing a BODY captures a low sample, and stays in Timing without touching the flag on a high one (R132). -/
theorem body_timing {s : State} (hs : s.dstate = .timing) :
    (s.line = false ∧ (body s).dstate = .idle ∧ (body s).dur = some s.cnt ∧ (body s).rdy = true ∧ (body s).en = false) ∨
      ((body s).dstate = .timing ∧ (body s).rdy = s.rdy) := by
  cases ha : dispatch s.cfg.edgePolicy s.dstate s.line with
  | start => rw [body_start ha]; exact .inr ⟨rfl, rfl⟩
  | ignore => rw [body_ignore ha]; exact .inr ⟨hs, rfl⟩
  | capture =>
    obtain ⟨hline, -⟩ := (dispatch_capture_iff ..).mp ha
    rw [body_capture ha]
    exact .inl ⟨hline, rfl, rfl, rfl, rfl⟩

/-- No step but BODY writes the decoder state or sets the ready flag (R26, R30). -/
theorem perform_dstate_rdy {u : Turn} {s t : State} (hu : u ≠ .body) (hen : enabled s u = true)
    (h : perform u s = .next t) : t.dstate = s.dstate ∧ (t.rdy = true → s.rdy = true) := by
  cases u with
  | body => exact absurd rfl hu
  | foreground =>
    obtain ⟨-, e, rfl, -⟩ := perform_foreground hen h
    exact ⟨apply_dstate e s, rdy_of_apply_rdy⟩
  | tick =>
    cases h
    obtain ⟨c, n, ht, -⟩ := tick_cases s
    rw [ht]
    exact ⟨rfl, id⟩
  | edge | entry => cases h; exact ⟨rfl, id⟩

/-- Settles O50: a BODY from Timing captures or stays, and no other step writes the decoder state or sets the flag. -/
theorem timingIsLeftOnlyByACapture : Obligations.TimingIsLeftOnlyByACapture := by
  intro s t hs h
  obtain ⟨l, n, -, hen, hp⟩ := step_perform h
  by_cases hu : nextTurn s = .body
  · rw [hu] at hp
    cases hp
    obtain ⟨hline, hidle, hpublished⟩ | ⟨hstays, hrdy⟩ := body_timing (s := { s with schedule := l, turns := n }) hs
    · exact ⟨fun _ => ⟨hu, hline, hpublished⟩, fun ht => nomatch hidle.symm.trans ht⟩
    · exact ⟨absurd hstays, fun _ => hrdy.trans⟩
  · obtain ⟨hd, hrdy⟩ := perform_dstate_rdy hu hen hp
    exact ⟨absurd (hd.trans hs), fun _ hclear => Bool.eq_false_iff.mpr fun ht => Bool.eq_false_iff.mp hclear (hrdy ht)⟩

/-! ### Clean runs: the steps of a schedule, with a foreground that leaves the gate and the pending flag alone -/

/-- The operation is none of the three that write `en` or `pf` (R122-R124). -/
def KeepsGate (i : Option Instr) : Prop :=
  i ≠ some .edisable ∧ i ≠ some .eenable ∧ i ≠ some .eclrpend

/-- One step, taken by the given turn; the foreground's keeps the gate. -/
structure CleanStep (u : Turn) (s t : State) : Prop where
  next : step s = .next t
  turn : nextTurn s = u
  keepsGate : u = .foreground → KeepsGate s.operation

/-- A run of clean steps with the given turns. -/
def CleanRun : List Turn → State → State → Prop
  | [], s, t => s = t
  | u :: l, s, t => ∃ m, CleanStep u s m ∧ CleanRun l m t

theorem cleanRun_append (l l' : List Turn) (s t : State) :
    CleanRun (l ++ l') s t ↔ ∃ m, CleanRun l s m ∧ CleanRun l' m t := by
  induction l generalizing s with
  | nil => simp [CleanRun]
  | cons u l ih =>
    simp only [List.cons_append, CleanRun, ih]
    exact ⟨fun ⟨a, hu, m, hl, hl'⟩ => ⟨m, ⟨a, hu, hl⟩, hl'⟩, fun ⟨m, ⟨a, hu, hl⟩, hl'⟩ => ⟨a, hu, m, hl, hl'⟩⟩

theorem runFor_succ {n : Nat} {s m : State} (h : step s = .next m) : runFor (n + 1) s = runFor n m := by
  rw [runFor, h]

theorem step_of_runFor_succ {n : Nat} {s t : State} (h : runFor (n + 1) s = .next t) :
    ∃ m, step s = .next m ∧ runFor n m = .next t := by
  cases hm : step s with
  | next m => exact ⟨m, rfl, runFor_succ hm ▸ h⟩
  | fault | refused => rw [runFor, hm] at h; cases h

theorem CleanRun.runFor {l : List Turn} {s t : State} (h : CleanRun l s t) : runFor l.length s = .next t := by
  induction l generalizing s with
  | nil => cases h; rfl
  | cons u l ih =>
    obtain ⟨m, hu, hl⟩ := h
    exact (runFor_succ hu.next).trans (ih hl)

theorem perform_schedule {u : Turn} {s t : State} (hen : enabled s u = true) (h : perform u s = .next t) :
    t.schedule = s.schedule := by
  cases u with
  | foreground =>
    obtain ⟨-, e, rfl, -⟩ := perform_foreground hen h
    cases e <;> rfl
  | tick =>
    cases h
    obtain ⟨c, n, ht, -⟩ := tick_cases s
    rw [ht]
  | edge | entry => cases h; rfl
  | body =>
    cases h
    obtain hb | hb | hb := body_cases s <;> rw [hb]

/-- A scheduled step takes the turn at the head of the schedule and leaves the others. -/
theorem step_scheduled {u : Turn} {l : List Turn} {s t : State} (hs : s.schedule = u :: l) (h : step s = .next t) :
    nextTurn s = u ∧ t.schedule = l := by
  obtain ⟨-, -, hen, hp⟩ := step_next h
  rw [← enabled_takeTurn] at hen
  exact ⟨by rw [nextTurn, hs], by rw [perform_schedule hen hp, takeTurn, hs]⟩

/-- A run of a schedule whose foreground keeps the gate is a clean run. -/
theorem cleanRun_of_runFor {l rest : List Turn} {s t : State} (hs : s.schedule = l ++ rest)
    (hgate : ∀ k u, k < l.length → runFor k s = .next u → nextTurn u = .foreground → KeepsGate u.operation)
    (h : runFor l.length s = .next t) : CleanRun l s t := by
  induction l generalizing s with
  | nil => cases h; rfl
  | cons u l ih =>
    obtain ⟨m, hm, hl⟩ := step_of_runFor_succ h
    obtain ⟨hu, hrest⟩ := step_scheduled hs hm
    refine ⟨m, ⟨hm, hu, fun hf => hgate 0 s (Nat.succ_pos _) rfl (hu.trans hf)⟩, ih hrest (fun k v hk hv => ?_) hl⟩
    exact hgate (k + 1) v (Nat.succ_lt_succ hk) ((runFor_succ hm).trans hv)

/-! ### What a clean step does to the block -/

/-- From `s` to `t` the block has at most counted `n` ticks (R100). -/
structure Ticked (n : Nat) (s t : State) : Prop where
  cfg : t.cfg = s.cfg
  line : t.line = s.line
  en : t.en = s.en
  pf : t.pf = s.pf
  dstate : t.dstate = s.dstate
  hact : t.hact = s.hact
  run : t.run = s.run
  cnt : s.run = true → s.cnt < s.cfg.modulus → t.cnt = (s.cnt + n) % s.cfg.modulus

/-- A step that leaves the block alone counts nothing. -/
theorem Ticked.refl (s : State) : Ticked 0 s s :=
  ⟨rfl, rfl, rfl, rfl, rfl, rfl, rfl, fun _ h => (Nat.mod_eq_of_lt h).symm⟩

theorem Ticked.trans {n m : Nat} {s t u : State} (h : Ticked n s t) (h' : Ticked m t u) : Ticked (n + m) s u where
  cfg := h'.cfg.trans h.cfg
  line := h'.line.trans h.line
  en := h'.en.trans h.en
  pf := h'.pf.trans h.pf
  dstate := h'.dstate.trans h.dstate
  hact := h'.hact.trans h.hact
  run := h'.run.trans h.run
  cnt hrun hlt := by
    have hcnt := h.cnt hrun hlt
    have hlt' : t.cnt < t.cfg.modulus := by rw [hcnt, h.cfg]; exact Nat.mod_lt _ (Nat.zero_lt_of_lt hlt)
    rw [h'.cnt (h.run.trans hrun) hlt', h.cfg, hcnt, Nat.mod_add_mod, Nat.add_assoc]

/-- An edge flips the line and sets the pending flag in both states alike. -/
theorem Ticked.afterEdge {n : Nat} {s t : State} (h : Ticked n s t) :
    Ticked n { s with line := !s.line, pf := true } { t with line := !t.line, pf := true } :=
  { h with line := congrArg (! ·) h.line, pf := rfl }

/-- An entry clears the pending flag and makes the handler active in both states alike. -/
theorem Ticked.afterEntry {n : Nat} {s t : State} (h : Ticked n s t) :
    Ticked n { s with pf := false, hact := true } { t with pf := false, hact := true } :=
  { h with pf := rfl, hact := rfl }

section CleanStep

variable {s t : State}

theorem CleanStep.perform {u : Turn} (h : CleanStep u s t) :
    ∃ l n, enabled { s with schedule := l, turns := n } u = true ∧
      perform u { s with schedule := l, turns := n } = .next t := by
  obtain ⟨l, n, -, hen, hp⟩ := step_perform h.next
  rw [h.turn] at hen hp
  exact ⟨l, n, hen, hp⟩

/-- An effect of an operation that keeps the gate writes neither `en` nor `pf` (R122-R124). -/
theorem apply_keepsGate {e : Effect}
    (hi : (∃ r, e = .raise r) ∨ ∃ i, s.operation = some i ∧ s.pc < s.cfg.plen ∧ e.IssuedBy i s)
    (hs : KeepsGate s.operation) : (e.apply s).en = s.en ∧ (e.apply s).pf = s.pf := by
  obtain ⟨r, rfl⟩ | ⟨i, hop, -, hi⟩ := hi
  · exact ⟨rfl, rfl⟩
  · obtain ⟨hdis, hen, hclr⟩ := hs
    rw [hop] at hdis hen hclr
    refine ⟨Decidable.byContradiction fun h => ?_,
      Decidable.byContradiction fun h => hclr (congrArg some (apply_pf_ne hi h))⟩
    exact (apply_en_ne hi h).elim (hdis <| congrArg some ·) (hen <| congrArg some ·)

theorem CleanStep.foreground (h : CleanStep .foreground s t) : Ticked 0 s t := by
  obtain ⟨l, n, hen, hp⟩ := h.perform
  obtain ⟨-, hh, -⟩ := foreground_enabled hen
  obtain ⟨e, hi, he⟩ := foregroundStep_effect hh
  cases (he _ (.refl _)).symm.trans hp
  obtain ⟨hgate, hpending⟩ := apply_keepsGate hi (h.keepsGate rfl)
  exact {
    cfg := apply_cfg e _
    line := apply_line e _
    en := hgate
    pf := hpending
    dstate := apply_dstate e _
    hact := apply_hact e _
    run := apply_run e _
    cnt := fun _ hlt => (apply_cnt e _).trans (Nat.mod_eq_of_lt hlt).symm }

theorem CleanStep.tick (h : CleanStep .tick s t) : Ticked 1 s t := by
  obtain ⟨l, n, -, hp⟩ := h.perform
  cases hp
  obtain hr | hr := Bool.eq_false_or_eq_true s.run
  · rw [tick_running (s := { s with schedule := l, turns := n }) hr]
    exact { Ticked.refl s with cnt := fun _ _ => rfl }
  · rw [tick_stopped (s := { s with schedule := l, turns := n }) hr]
    exact { Ticked.refl s with cnt := fun hrun => nomatch hr.symm.trans hrun }

/-- An edge while armed flips the line and sets the pending flag (R120). -/
theorem CleanStep.edge {b : Bool} (h : CleanStep (.edge b) s t) (hen : s.en = true) :
    Ticked 0 { s with line := !s.line, pf := true } t := by
  obtain ⟨l, n, -, hp⟩ := h.perform
  cases hp
  exact { Ticked.refl s with line := rfl, pf := if_pos hen }

/-- An entry takes the pending notification to the handler (R130). -/
theorem CleanStep.entry (h : CleanStep .entry s t) :
    s.pf = true ∧ s.hact = false ∧ Ticked 0 { s with pf := false, hact := true } t := by
  obtain ⟨l, n, hen, hp⟩ := h.perform
  cases hp
  obtain ⟨-, hh, -, hpf⟩ := entry_enabled hen
  exact ⟨hpf, hh, { Ticked.refl s with pf := rfl, hact := rfl }⟩

theorem CleanStep.body (h : CleanStep .body s t) :
    s.hact = true ∧ ∃ l n, t = Machine.body { s with schedule := l, turns := n } := by
  obtain ⟨l, n, hen, hp⟩ := h.perform
  cases hp
  exact ⟨((body_enabled_iff _).mp hen).2, l, n, rfl⟩

end CleanStep

/-! ### The steps of HND that are owed -/

/-- How many steps HND can take before the next edge: an ENTRY and a BODY for a pending notification, a BODY for an active
handler. -/
def owed (s : State) : Nat := 2 * s.pf.toNat + s.hact.toNat

/-- How many of the steps are HND's. -/
def hndCount (l : List Turn) : Nat := l.countP fun u => u.agent == .hnd

theorem tickCount_append (l l' : List Turn) : tickCount (l ++ l') = tickCount l + tickCount l' := List.countP_append

theorem Ticked.owed_eq {n : Nat} {s t : State} (h : Ticked n s t) : owed t = owed s := by
  rw [owed, owed, h.pf, h.hact]

theorem body_owed (s : State) : owed (body s) = 2 * s.pf.toNat := by
  obtain hb | hb | hb := body_cases s <;> rw [hb] <;> rfl

/-- Every step but an edge is one of HND's and pays one that is owed, or has at most counted a tick. -/
theorem CleanStep.owed_eq {u : Turn} {s t : State} (h : CleanStep u s t) (hu : ∀ b, u ≠ .edge b) :
    owed s = owed t + hndCount [u] ∧ (hndCount [u] = 0 → Ticked (tickCount [u]) s t) := by
  cases u with
  | foreground => exact ⟨h.foreground.owed_eq.symm, fun _ => h.foreground⟩
  | tick => exact ⟨h.tick.owed_eq.symm, fun _ => h.tick⟩
  | edge b => exact absurd rfl (hu b)
  | entry =>
    obtain ⟨hpf, hh, ht⟩ := h.entry
    exact ⟨by rw [ht.owed_eq, owed, hpf, hh]; rfl, nofun⟩
  | body =>
    obtain ⟨hh, l, n, rfl⟩ := h.body
    exact ⟨by rw [body_owed, owed, hh]; rfl, nofun⟩

theorem noEdge_cons {u : Turn} {l : List Turn} (h : noEdge (u :: l) = true) :
    (∀ b, u ≠ .edge b) ∧ noEdge l = true := by
  cases u with
  | edge b => cases h
  | foreground | tick | entry | body => exact ⟨nofun, h⟩

/-- A run without an edge pays as many owed steps as HND takes, and one without a step of HND only counts its ticks. -/
theorem CleanRun.owed_eq {l : List Turn} {s t : State} (h : CleanRun l s t) (hl : noEdge l = true) :
    owed s = owed t + hndCount l ∧ (hndCount l = 0 → Ticked (tickCount l) s t) := by
  induction l generalizing s with
  | nil => cases h; exact ⟨rfl, fun _ => .refl _⟩
  | cons u l ih =>
    obtain ⟨m, hu, hrun⟩ := h
    obtain ⟨hedge, hl⟩ := noEdge_cons hl
    obtain ⟨hm, htick⟩ := hu.owed_eq hedge
    obtain ⟨ht, hticks⟩ := ih hrun hl
    have hcount : hndCount (u :: l) = hndCount [u] + hndCount l := List.countP_append (l₁ := [u])
    have htickCount : tickCount (u :: l) = tickCount [u] + tickCount l := tickCount_append [u] l
    refine ⟨by omega, fun h0 => ?_⟩
    rw [htickCount]
    exact (htick (by omega)).trans (hticks (by omega))

/-! ### One notification (R120, R130, R131) -/

/-- From an armed quiet state, an edge, an entry and a body with no other edge between leave room for no other step of HND:
BODY begins on the flipped line with nothing pending, and the block has only counted the ticks. -/
theorem notification_reaches_body {l l' l'' : List Turn} {b : Bool} {s t : State}
    (h : CleanRun (l ++ .edge b :: l' ++ .entry :: l'' ++ [.body]) s t) (hl : noEdge l = true) (hl' : noEdge l' = true)
    (hl'' : noEdge l'' = true) (hen : s.en = true) (hpf : s.pf = false) (hh : s.hact = false) :
    ∃ m, Ticked (tickCount (l ++ l' ++ l'')) { s with line := !s.line, pf := false, hact := true } m ∧
      CleanStep .body m t := by
  simp only [cleanRun_append, CleanRun] at h
  obtain ⟨m, ⟨c, ⟨a, hrun, a', hedge, hrun'⟩, c', hentry, hrun''⟩, _, hbody, rfl⟩ := h
  refine ⟨m, ?_, hbody⟩
  obtain ⟨hs, hticks⟩ := hrun.owed_eq hl
  obtain ⟨ha', hticks'⟩ := hrun'.owed_eq hl'
  obtain ⟨hc', hticks''⟩ := hrun''.owed_eq hl''
  have hquiet : owed s = 0 := by rw [owed, hpf, hh]; rfl
  have ha := hticks (by omega)
  have hnotified := hedge.edge (ha.en.trans hen)
  have hpending : owed a' = 2 := by rw [hnotified.owed_eq, owed, ha.hact, hh]; rfl
  obtain ⟨hpaid, -⟩ := hentry.owed_eq nofun
  obtain ⟨hpaid', -⟩ := hbody.owed_eq nofun
  have hpaidOne : hndCount [.entry] = 1 ∧ hndCount [.body] = 1 := ⟨rfl, rfl⟩
  obtain ⟨-, -, hentered⟩ := hentry.entry
  have hc := (ha.afterEdge.trans hnotified).trans (hticks' (by omega))
  have hm := (hc.afterEntry.trans hentered).trans (hticks'' (by omega))
  rw [tickCount_append, tickCount_append]
  exact hm

/-! ### The clean pulse (R139) -/

/-- In Idle a high sample starts the measurement, under either policy (R132, R133). -/
theorem CleanStep.body_starts {s t : State} (h : CleanStep .body s t) (hline : s.line = true) (hidle : s.dstate = .idle) :
    t.hist.getLast? = some .start ∧
      ∃ l n, t = { s with
        hlevel := s.line, cnt := 0, run := true, dstate := .timing, hact := false, hist := s.hist ++ [.start]
        schedule := l, turns := n } := by
  obtain ⟨-, l, n, rfl⟩ := h.body
  have hstart : dispatch s.cfg.edgePolicy s.dstate s.line = .start := (dispatch_start_iff ..).mpr ⟨hline, .inr hidle⟩
  rw [body_start (s := { s with schedule := l, turns := n }) hstart]
  exact ⟨List.getLast?_concat, l, n, rfl⟩

/-- In Timing a low sample captures the counter, under either policy (R132, R134). -/
theorem CleanStep.body_captures {s t : State} (h : CleanStep .body s t) (hline : s.line = false)
    (htiming : s.dstate = .timing) :
    t.hist.getLast? = some (.capture s.cnt) ∧ t.dur = some s.cnt ∧ t.rdy = true ∧ t.en = false ∧ t.dstate = .idle ∧
      t.run = false := by
  obtain ⟨-, l, n, rfl⟩ := h.body
  have hcapture : dispatch s.cfg.edgePolicy s.dstate s.line = .capture :=
    (dispatch_capture_iff ..).mpr ⟨hline, .inr htiming⟩
  rw [body_capture (s := { s with schedule := l, turns := n }) hcapture]
  exact ⟨by simp, rfl, rfl, rfl, rfl, rfl⟩

/-- Settles O52: the first notification reaches a BODY that starts, the second one that captures, and between the two a
running counter counts the ticks from 0. -/
theorem cleanPulsePublishesItsTicks : Obligations.CleanPulsePublishesItsTicks := by
  intro s t b1 b2 l1 l2 l3 l4 l5 rest first second hidle hen hpf hh hline hedge hfirst hsecond hschedule hgate hrun
  have hclean : CleanRun (first ++ second) s t := cleanRun_of_runFor hschedule hgate hrun
  obtain ⟨u, hrise, hfall⟩ := (cleanRun_append ..).mp hclean
  have hedges : noEdge l1 = true ∧ noEdge l2 = true ∧ noEdge l3 = true ∧ noEdge l4 = true ∧ noEdge l5 = true := by
    simpa [noEdge, List.all_append, and_assoc] using hedge
  obtain ⟨h1, h2, h3, h4, h5⟩ := hedges
  have hrunRise := hrise.runFor
  subst hfirst hsecond
  obtain ⟨m, hm, hbody⟩ := notification_reaches_body (l := []) hrise rfl h1 h2 hen hpf hh
  obtain ⟨hlast, _, _, rfl⟩ := hbody.body_starts (hm.line.trans (congrArg (! ·) hline)) (hm.dstate.trans hidle)
  obtain ⟨m', hm', hbody'⟩ := notification_reaches_body hfall h3 h4 h5 (hm.en.trans hen) hm.pf rfl
  have hlow : m'.line = false := hm'.line.trans (by simp [hm.line, hline])
  have hcnt : m'.cnt = tickCount (l3 ++ l4 ++ l5) % 2 ^ s.cfg.width :=
    calc m'.cnt = (0 + tickCount (l3 ++ l4 ++ l5)) % m.cfg.modulus := hm'.cnt rfl (Nat.two_pow_pos _)
      _ = tickCount (l3 ++ l4 ++ l5) % 2 ^ s.cfg.width := by rw [Nat.zero_add, hm.cfg]
  rw [← hcnt]
  exact ⟨⟨_, hrunRise, rfl, rfl, hlast⟩, hbody'.body_captures hlow hm'.dstate⟩

/-! ### The operations of the edge source and the handoff (O9, O10) -/

theorem publish_clear {s : State} (h : s.rdy = false) : publish s = { s with rdy := true } := by
  simp [publish, h]

/-- Over a set flag only the ghost `ovr` changes: the flag is one bit (R150). -/
theorem publish_set {s : State} (h : s.rdy = true) : publish s = { s with ovr := true } := by
  simp [publish, h]

/-- Settles O9: the three are handler-only operations; a publish writes the flag or, over a set one, `ovr`. -/
theorem sampleStoreAndPublish : Obligations.SampleStoreAndPublish := by
  refine ⟨⟨rfl, rfl, rfl⟩, fun s hs => ?_, fun s hs => ?_⟩
  · have hpublish : exec .rdyset s = .next (publish s) := handlerOnly_in_handler hs _ _
    exact ⟨handlerOnly_in_handler hs _ _, handlerOnly_in_handler hs _ _, fun h => publish_clear h ▸ hpublish,
      fun h => publish_set h ▸ hpublish⟩
  · exact ⟨handlerOnly_in_foreground hs .esample _, handlerOnly_in_foreground hs .durwr _,
      handlerOnly_in_foreground hs .rdyset _⟩

/-- Settles O10: the context decides only whether EDISABLE advances the pc; EENABLE gives ENTRY its last condition. -/
theorem armDisarmAndClearPending : Obligations.ArmDisarmAndClearPending := by
  refine ⟨⟨rfl, rfl, rfl⟩, fun s hs => if_pos hs, fun s hs => ⟨if_neg (ne_true_of_eq_false hs), rfl, rfl⟩, ?_⟩
  intro s t hs hf hpf h
  cases h
  exact (entry_enabled_iff _).mpr ⟨hf, hs, rfl, hpf⟩

/-! ### The steps of the edge source and the handler (O31, O32, O33) -/

/-- Settles O31: armed or under LATCH the flag is set, and otherwise PEND_WHILE_DISARMED says what the edge does to it. -/
theorem edgeStep : Obligations.EdgeStep := by
  intro s b
  have hedge {p : Bool} (h : pendingAfterEdge s b = p) :
      perform (.edge b) s = .next { s with line := !s.line, pf := p, hist := s.hist ++ [.edge (!s.line)] } := by
    rw [← h]; rfl
  refine ⟨Option.isNone_iff_eq_none, fun h => hedge ?_, fun hen hp => hedge ?_, fun hen hp => hedge ?_⟩
  · obtain hen | hp := h
    · simp [pendingAfterEdge, hen]
    · simp [pendingAfterEdge, hp]
  · simp [pendingAfterEdge, hen, hp]
  · simp [pendingAfterEdge, hen, hp]

/-- Settles O32: ENTRY writes `hact`, which the foreground waits for and ENV does not read. -/
theorem entryStep : Obligations.EntryStep := by
  refine fun s => ⟨entry_enabled_iff s, rfl, fun t h => ?_⟩
  cases h
  exact ⟨by simp [enabled, entry], rfl, fun _ => rfl⟩

/-- Settles O33: each clause is one action's rows of the table. -/
theorem bodyStep : Obligations.BodyStep := by
  refine fun s => ⟨body_enabled_iff s, fun hline h => ?_, fun hline h => ?_, fun hp h => ?_⟩
  · rw [perform, body_start ((dispatch_start_iff ..).mpr ⟨hline, h⟩), hline]
  · rw [perform, body_capture ((dispatch_capture_iff ..).mpr ⟨hline, h⟩), hline]
  · rw [perform, body_ignore ((dispatch_ignore_iff ..).mpr ⟨hp, h⟩)]

end Sys2Proof.Proofs.EdgeDecoderFamily

/-! SUPPORT AND PROOFS of the family 43_handoff.md: only BODY publishes, and only EENABLE arms. So while disarmed
nothing publishes, and a foreground that re-arms only with a clear flag is never overrun. -/

namespace Sys2Proof.Proofs.HandoffFamily

open Sys2Proof Sys2Proof.Machine Sys2Proof.Laws Sys2Proof.Proofs.StateFamily Sys2Proof.Proofs.EdgeDecoderFamily

/-! ### Who publishes, who enters the handler, who arms -/

/-- Only BODY writes the timer's control, the capture, the duration and the ghost `ovr` (R42). -/
theorem perform_frame_of_ne_body {u : Turn} {s t : State} (hu : u ≠ .body) (hen : enabled s u = true)
    (h : perform u s = .next t) : t.run = s.run ∧ t.dur = s.dur ∧ t.hcap = s.hcap ∧ t.ovr = s.ovr := by
  cases u with
  | body => exact absurd rfl hu
  | foreground =>
    obtain ⟨-, e, rfl, -⟩ := perform_foreground hen h
    exact ⟨apply_run e s, apply_dur e s, apply_hcap e s, apply_ovr e s⟩
  | tick =>
    cases h
    obtain ⟨c, n, ht, -⟩ := tick_cases s
    rw [ht]
    exact ⟨rfl, rfl, rfl, rfl⟩
  | edge | entry => cases h; exact ⟨rfl, rfl, rfl, rfl⟩

/-- Only ENTRY makes the handler active (R27, R130). -/
theorem perform_enters_handler {u : Turn} {s t : State} (hen : enabled s u = true) (h : perform u s = .next t)
    (hs : s.hact = false) (ht : t.hact = true) : u = .entry := by
  cases u with
  | entry => rfl
  | foreground =>
    obtain ⟨-, e, rfl, -⟩ := perform_foreground hen h
    cases hs.symm.trans ((apply_hact e s).symm.trans ht)
  | tick => cases h; cases hs.symm.trans ((tick_hact s).symm.trans ht)
  | edge => cases h; cases hs.symm.trans ht
  | body => cases hs.symm.trans ((body_enabled_iff s).mp hen).2

/-- Only EENABLE arms (R123). -/
theorem apply_arms {e : Effect} {i : Instr} {s : State} (hi : e.IssuedBy i s) (hs : s.en = false)
    (h : (e.apply s).en = true) : i = .eenable := by
  cases e with
  | arm => exact hi
  | disarm => cases h
  | _ => cases hs.symm.trans h

/-- Only the foreground's EENABLE arms: the handler disarms at most (R24, R159). -/
theorem perform_arms {u : Turn} {s t : State} (hen : enabled s u = true) (h : perform u s = .next t)
    (hs : s.en = false) (ht : t.en = true) : u = .foreground ∧ s.operation = some .eenable := by
  cases u with
  | foreground =>
    obtain ⟨-, hh, -⟩ := foreground_enabled hen
    obtain ⟨e, hi, he⟩ := foregroundStep_effect hh
    cases (he s (.refl s)).symm.trans h
    obtain ⟨r, rfl⟩ | ⟨i, hop, -, hi⟩ := hi
    · cases hs.symm.trans ht
    · exact ⟨rfl, apply_arms hi hs ht ▸ hop⟩
  | tick => cases h; cases hs.symm.trans ((tick_en s).symm.trans ht)
  | edge | entry => cases h; cases hs.symm.trans ht
  | body =>
    cases h
    obtain hb | hb | hb := body_cases s <;> rw [hb] at ht
    · cases hs.symm.trans ht
    · cases ht
    · cases hs.symm.trans ht

/-! ### The armed block has a clear flag (O58) -/

/-- The launch values meet the bounds and the implications of the invariant (R241). -/
theorem inv_of_isLaunch {s : State} (h : s.IsLaunch) : s.Inv where
  cfg_wf := h.cfg_wf
  cnt := h.cnt
  hcap := h.hcap
  dur := by simp [h.dur]
  pc := by simp [h.pc]
  run := by simp [h.run, h.dstate]
  hact := by simp [h.hact]
  rdy := by simp [h.rdy]
  fault := by simp [h.fault]

/-- Over a clear flag BODY overruns nothing, and a BODY that publishes disarms (R134, R150). -/
theorem body_over_clear_flag {s : State} (h : s.rdy = false) :
    (body s).ovr = s.ovr ∧ ((body s).en = true → (body s).rdy = false) := by
  obtain hb | hb | hb := body_cases s <;> rw [hb]
  · exact ⟨rfl, fun _ => h⟩
  · exact ⟨by simp [h], nofun⟩
  · exact ⟨rfl, fun _ => h⟩

/-- BODY runs armed, so over a clear flag; no other step sets the flag, and arming is the foreground's EENABLE. -/
theorem perform_keeps_armed_clear {u : Turn} {s t : State} (hen : enabled s u = true) (h : perform u s = .next t)
    (hact : s.hact = true → s.en = true) (hclear : s.en = true → s.rdy = false)
    (hrearm : u = .foreground → s.operation = some .eenable → s.rdy = false) :
    t.ovr = s.ovr ∧ (t.en = true → t.rdy = false) := by
  by_cases hu : u = .body
  · subst hu
    cases h
    obtain ⟨-, hh⟩ := (body_enabled_iff s).mp hen
    exact body_over_clear_flag (hclear (hact hh))
  · obtain ⟨-, hrdy⟩ := perform_dstate_rdy hu hen h
    obtain ⟨-, -, -, hovr⟩ := perform_frame_of_ne_body hu hen h
    refine ⟨hovr, fun harmed => ?_⟩
    have hs : s.rdy = false := by
      cases hsen : s.en with
      | true => exact hclear hsen
      | false =>
        obtain ⟨hfg, hop⟩ := perform_arms hen h hsen harmed
        exact hrearm hfg hop
    exact Bool.eq_false_iff.mpr fun ht => Bool.eq_false_iff.mp hs (hrdy ht)

/-- Settles O58: the protocol premise covers the one step that arms, and BODY runs only while armed. -/
theorem rearmAfterConsumeNeverDoublePublishes : Obligations.RearmAfterConsumeNeverDoublePublishes := by
  refine ⟨fun s h => ⟨inv_of_isLaunch h, fun _ => h.rdy, h.ovr⟩, fun s t hs hclear hovr hrearm h => ?_⟩
  obtain ⟨l, n, -, hen, hp⟩ := step_perform h
  obtain ⟨hovr', hclear'⟩ := perform_keeps_armed_clear hen hp hs.hact hclear hrearm
  exact ⟨stepsKeepTheInvariant s t hs h, hclear', hovr'.trans hovr⟩

/-! ### The disarmed window (O46) -/

/-- Settles O46: the step is neither ENTRY, which alone enters the handler, nor BODY, which alone publishes. -/
theorem disarmedWindowExcludesTheHandler : Obligations.DisarmedWindowExcludesTheHandler := by
  intro s hs hh
  refine ⟨by simp [enabled, hs], by simp [enabled, hh], fun t h => ?_⟩
  obtain ⟨l, n, -, hen, hp⟩ := step_perform h
  have hentry : nextTurn s ≠ .entry := fun hu => by simp [hu, enabled, hs] at hen
  have hbody : nextTurn s ≠ .body := fun hu => by simp [hu, enabled, hh] at hen
  obtain ⟨hdstate, hrdy⟩ := perform_dstate_rdy hbody hen hp
  obtain ⟨hrun, hdur, hhcap, hovr⟩ := perform_frame_of_ne_body hbody hen hp
  have hact : t.hact = false := Bool.eq_false_iff.mpr fun ht => hentry (perform_enters_handler hen hp hh ht)
  have harms := perform_arms hen hp hs
  exact ⟨hact, hdstate, hrun, hdur, hhcap, hovr, hrdy, harms⟩

/-! ### The foreground's operations on the handoff (O11, O12) -/

/-- Settles O11: both complete in every state; RDYTST's bit is the flag's. -/
theorem clearAndTestReadyFlag : Obligations.ClearAndTestReadyFlag := by
  refine ⟨rfl, fun rd => by cases rd <;> rfl, fun s rd => ?_⟩
  have htest {b : Bool} (h : s.rdy = b) :
      exec (.rdytst rd) s = .next { s with regs := s.regs.write rd (wordOfBit b), pc := s.pc + 1 } := by
    rw [← h]; rfl
  exact ⟨rfl, htest, htest⟩

theorem durrd_unwritten {s : State} (h : s.dur = none) (rd : Reg) : exec (.durrd rd) s = trap .unwrittenDur s := by
  simp only [exec, execDurrd, h]

/-- A read faults exactly while armed and not declared atomic (R154, R217). -/
theorem durrd_written {s : State} {d : Nat} (h : s.dur = some d) (rd : Reg) :
    exec (.durrd rd) s =
      if s.en = true ∧ s.cfg.durAtomic = false then trap (.raceDur d) s
      else complete ((s.writeReg rd (wordOfNat d)).emit (.read d)) := by
  simp only [exec, execDurrd, h, Bool.and_eq_true, Bool.not_eq_true']

/-- Settles O12: the three clauses are the three branches of the read. -/
theorem readDuration : Obligations.ReadDuration := by
  refine ⟨fun rd => by cases rd <;> rfl, fun s rd => ⟨fun h => durrd_unwritten h rd, fun d h hen hatomic => ?_,
    fun d h hsafe => ?_⟩⟩
  · rw [durrd_written h, if_pos ⟨hen, hatomic⟩]
    rfl
  · have hno : ¬(s.en = true ∧ s.cfg.durAtomic = false) := fun ⟨hen, hatomic⟩ => by simp [hen, hatomic] at hsafe
    rw [durrd_written h, if_neg hno]
    rfl

end Sys2Proof.Proofs.HandoffFamily

/-! SUPPORT AND PROOFS of the family 44_actuator.md. For the register image of a duration the difference is small, so the
word SCALE writes stands for it in either mode; the decision is then a comparison of integers. -/

namespace Sys2Proof.Proofs.ActuatorFamily

open Sys2Proof Sys2Proof.Machine Sys2Proof.Laws Sys2Proof.Proofs.StateFamily Sys2Proof.Proofs.EdgeDecoderFamily
  Sys2Proof.Proofs.HandoffFamily

/-! ### The configuration's bounds (O37) -/

theorem config_wf_iff (c : Config) :
    c.wf = true ↔ (1 ≤ c.width ∧ c.width ≤ 16) ∧ c.baseline < 2 ^ c.width ∧ c.fullscale < 2 ^ 31 ∧
      (0 < c.pct.den ∧ c.pct.num ≤ 100 * c.pct.den) ∧ 1 ≤ c.plen ∧ c.plen ≤ 65536 := by
  simp [Config.wf, Ratio.isPercentage, Memory.wf, and_assoc]

/-- The agents' steps have a meaning wherever they are enabled. -/
theorem perform_completes {u : Turn} {s : State} (hen : enabled s u = true) : ∃ t, perform u s = .next t := by
  cases u with
  | foreground =>
    obtain ⟨-, hh, -⟩ := foreground_enabled hen
    obtain ⟨e, -, he⟩ := foregroundStep_effect hh
    exact ⟨e.apply s, he s (.refl s)⟩
  | tick | edge | entry | body => exact ⟨_, rfl⟩

/-- Under a well-formed configuration a step goes on or stops; it is never refused. -/
theorem step_not_refused {s : State} (hwf : s.cfg.wf = true) (r : Refusal) : step s ≠ .refused r := by
  rw [step, if_pos hwf]
  cases s.fault with
  | some f => exact nofun
  | none =>
    by_cases hen : enabled s (nextTurn s) = true
    · obtain ⟨t, ht⟩ := perform_completes (congrFun (enabled_takeTurn s) _ ▸ hen)
      simp only [hen, if_true, ht]
      exact nofun
    · simp only [hen]
      exact nofun

theorem step_ill_formed {s : State} (h : ¬ s.cfg.wf = true) : step s = .refused .illFormedConfig := if_neg h

/-- Settles O37: the check of the configuration is the one refusal, and it is the conjunction of the bounds. -/
theorem illFormedConfigurationsAreRefused : Obligations.IllFormedConfigurationsAreRefused := by
  intro s
  rw [← config_wf_iff]
  by_cases hwf : s.cfg.wf = true
  · exact ⟨⟨fun h => absurd h (step_not_refused hwf _), fun h => absurd hwf h⟩,
      fun r h => absurd h (step_not_refused hwf r)⟩
  · refine ⟨⟨fun _ => hwf, fun _ => step_ill_formed hwf⟩, fun r h => ?_⟩
    cases (step_ill_formed hwf).symm.trans h
    rfl

/-! ### The threshold (O53) -/

/-- Settles O53: the quotient's two bounds, and the bound of PCT on the dividend. -/
theorem thresholdIsTheExactFloor : Obligations.ThresholdIsTheExactFloor := by
  intro c hwf
  obtain ⟨-, -, -, ⟨hden, hpct⟩, -⟩ := (config_wf_iff c).mp hwf
  have hpos : 0 < 100 * c.pct.den := by omega
  have hth : c.threshold = c.pct.num * c.fullscale / (100 * c.pct.den) := by rw [Config.threshold, Nat.mul_comm c.pct.den]
  rw [hth]
  refine ⟨Nat.div_mul_le_self _ _, Nat.lt_mul_of_div_lt (Nat.lt_succ_self _) hpos,
    Nat.div_le_of_le_mul (Nat.mul_le_mul_right _ hpct), fun h => by simp [h], fun h => ?_⟩
  rw [h, Nat.mul_div_cancel_left _ hpos]

/-! ### Words that stand for integers -/

theorem toInt_wordOfInt {z : Int} (hlo : -(2 ^ 31) ≤ z) (hhi : z < 2 ^ 31) : (wordOfInt z).toInt = z :=
  BitVec.toInt_ofInt_eq_self (by decide) hlo hhi

theorem toNat_wordOfInt {z : Int} (hlo : 0 ≤ z) (hhi : z < 2 ^ 32) : ((wordOfInt z).toNat : Int) = z := by
  rw [wordOfInt, BitVec.toNat_ofInt]
  omega

theorem toNat_wordOfNat {n : Nat} (h : n < 2 ^ 31) : (wordOfNat n).toNat = n := by
  rw [wordOfNat, BitVec.toNat_ofNat]
  omega

theorem toInt_wordOfNat {n : Nat} (h : n < 2 ^ 31) : (wordOfNat n).toInt = n := by
  rw [BitVec.toInt_eq_toNat_of_lt (by rw [toNat_wordOfNat h]; omega), toNat_wordOfNat h]

/-! ### The operations on a written and on an unwritten source (O13, O15, O16) -/

theorem withSource_unwritten {r : Reg} {s : State} (h : s.regs.read r = none) (k : Word → Result) :
    withSource r s k = trap (.unwrittenReg r) s := by
  simp only [withSource, h]

theorem withSource_written {r : Reg} {s : State} {v : Word} (h : s.regs.read r = some v) (k : Word → Result) :
    withSource r s k = k v := by
  simp only [withSource, h]

theorem overflows_iff (z : Int) : overflows z = true ↔ z < -(2 ^ 31) ∨ 2 ^ 31 ≤ z := by
  simp [overflows]

/-- The difference SCALE writes, in the mode of the configuration (R172). -/
def scaled (c : Config) (v : Word) : Int :=
  match c.scaleMode with
  | .signed => signedDifference c v
  | .wrap => wrappedDifference c v

theorem scaled_signed {c : Config} (h : c.scaleMode = .signed) (v : Word) : scaled c v = v.toInt - c.baseline := by
  simp only [scaled, h]; rfl

theorem natCast_modulus (c : Config) : (c.modulus : Int) = 2 ^ c.width := Int.natCast_pow 2 c.width

theorem scaled_wrap {c : Config} (h : c.scaleMode = .wrap) (v : Word) :
    scaled c v = ((v.toNat : Int) - c.baseline) % 2 ^ c.width := by
  simp only [scaled, h, ← natCast_modulus]; rfl

/-- SCALE faults exactly on an exact difference out of range, and writes the mode's difference otherwise (R172). -/
theorem scale_written {s : State} {rs : Reg} {v : Word} (h : s.regs.read rs = some v) (rd : Reg) :
    exec (.scale rd rs) s =
      if s.cfg.scaleMode = .signed ∧ overflows (v.toInt - s.cfg.baseline) = true then
        trap (.overflow (v.toInt - s.cfg.baseline)) s
      else .next { s with regs := s.regs.write rd (wordOfInt (scaled s.cfg v)), pc := s.pc + 1 } := by
  rw [exec, execScale, withSource_written h, scaled]
  cases s.cfg.scaleMode with
  | signed => simp only [true_and]; rfl
  | wrap => rfl

theorem cmpth_written {s : State} {rs : Reg} {v : Word} (h : s.regs.read rs = some v) (rd : Reg) :
    exec (.cmpth rd rs) s =
      .next { s with regs := s.regs.write rd (wordOfBit (reachesThreshold s.cfg v)), pc := s.pc + 1 } :=
  withSource_written h _

theorem outset_written {s : State} {rs : Reg} {v : Word} (h : s.regs.read rs = some v) :
    exec (.outset rs) s =
      .next { s with out := isNonzero v, hist := s.hist ++ [.out (isNonzero v)], pc := s.pc + 1 } :=
  withSource_written h _

theorem reachesThreshold_iff (c : Config) (v : Word) : reachesThreshold c v = true ↔ (c.threshold : Int) ≤ v.toInt :=
  decide_eq_true_iff

/-- Settles O15: the bit written is the comparison's. -/
theorem compareWithTheThreshold : Obligations.CompareWithTheThreshold := by
  refine ⟨fun rd rs => by cases rd <;> cases rs <;> rfl, fun s rd rs => ⟨fun h => withSource_unwritten h _,
    fun v hv hle => ?_, fun v hv hlt => ?_⟩⟩
  · rw [cmpth_written hv, (reachesThreshold_iff _ _).mpr hle]
    rfl
  · have hno : reachesThreshold s.cfg v = false := decide_eq_false (Int.not_le.mpr hlt)
    rw [cmpth_written hv, hno]
    rfl

/-- Settles O16: the level driven is whether the value is non-zero. -/
theorem driveTheOutput : Obligations.DriveTheOutput := by
  refine ⟨fun rs => by cases rs <;> rfl, fun s rs => ⟨fun h => withSource_unwritten h _, fun v hv hne => ?_,
    fun v hv hz => ?_⟩⟩
  · have hon : isNonzero v = true := decide_eq_true hne
    rw [outset_written hv, hon]
  · have hoff : isNonzero v = false := decide_eq_false (not_not_intro hz)
    rw [outset_written hv, hoff]

/-! ### The register image of a duration (O14) -/

section Duration

variable {c : Config} {d : Nat}

theorem modulus_le (hwf : c.wf = true) : c.modulus ≤ 2 ^ 16 := by
  obtain ⟨⟨-, hw⟩, -⟩ := (config_wf_iff c).mp hwf
  exact Nat.pow_le_pow_right (by decide) hw

theorem scaled_duration_signed (hwf : c.wf = true) (hd : d < c.modulus) (h : c.scaleMode = .signed) :
    scaled c (wordOfNat d) = (d : Int) - c.baseline := by
  have := modulus_le hwf
  rw [scaled_signed h, toInt_wordOfNat (by omega)]

theorem scaled_duration_wrap (hwf : c.wf = true) (hd : d < c.modulus) (h : c.scaleMode = .wrap) :
    scaled c (wordOfNat d) = ((d : Int) - c.baseline) % 2 ^ c.width := by
  have := modulus_le hwf
  rw [scaled_wrap h, toNat_wordOfNat (by omega)]

theorem scaled_wrap_range {v : Word} (hw : c.width ≤ 16) (h : c.scaleMode = .wrap) :
    0 ≤ scaled c v ∧ scaled c v < 2 ^ 16 := by
  have hpos : 0 < c.modulus := Nat.two_pow_pos _
  have hle : c.modulus ≤ 2 ^ 16 := Nat.pow_le_pow_right (by decide) hw
  rw [scaled_wrap h, ← natCast_modulus]
  have hlt := Int.emod_lt_of_pos ((v.toNat : Int) - c.baseline) (Int.natCast_pos.mpr hpos)
  exact ⟨Int.emod_nonneg _ (by omega), by omega⟩

/-- The exact difference of a duration and BASELINE, two W-bit values, is far inside 32 bits (R172, R218). -/
theorem duration_difference_range (hwf : c.wf = true) (hd : d < c.modulus) :
    -(2 ^ 31) ≤ (wordOfNat d).toInt - c.baseline ∧ (wordOfNat d).toInt - c.baseline < 2 ^ 31 := by
  obtain ⟨-, hbase, -⟩ := (config_wf_iff c).mp hwf
  have hmod := modulus_le hwf
  have hbase' : c.baseline < 2 ^ 16 := Nat.lt_of_lt_of_le hbase hmod
  rw [toInt_wordOfNat (by omega)]
  omega

/-- The word SCALE writes for a duration stands for the mode's difference. -/
theorem toInt_scaled_duration (hwf : c.wf = true) (hd : d < c.modulus) :
    (wordOfInt (scaled c (wordOfNat d))).toInt = scaled c (wordOfNat d) := by
  cases h : c.scaleMode with
  | signed =>
    obtain ⟨hlo, hhi⟩ := duration_difference_range hwf hd
    rw [← scaled_signed h] at hlo hhi
    exact toInt_wordOfInt hlo hhi
  | wrap =>
    obtain ⟨⟨-, hw⟩, -⟩ := (config_wf_iff c).mp hwf
    obtain ⟨hlo, hhi⟩ := scaled_wrap_range (v := wordOfNat d) hw h
    exact toInt_wordOfInt (by omega) (by omega)

end Duration

theorem scale_duration {s : State} {rs : Reg} {d : Nat} (hwf : s.cfg.wf = true) (hd : d < s.cfg.modulus)
    (h : s.regs.read rs = some (wordOfNat d)) (rd : Reg) :
    exec (.scale rd rs) s =
      .next { s with regs := s.regs.write rd (wordOfInt (scaled s.cfg (wordOfNat d))), pc := s.pc + 1 } := by
  have hrange := duration_difference_range hwf hd
  rw [scale_written h, if_neg fun ⟨_, ho⟩ => by rw [overflows_iff] at ho; omega]

/-- Settles O14: the difference of a duration is in range, so SCALE writes the word that stands for it. -/
theorem scaleOfADurationCompletes : Obligations.ScaleOfADurationCompletes := by
  intro s rd rs d hwf hd h
  refine ⟨_, scale_duration hwf hd h rd, fun hm => ?_, fun hm => ?_⟩
  · rw [toInt_scaled_duration hwf hd, scaled_duration_signed hwf hd hm]
  · obtain ⟨⟨-, hw⟩, -⟩ := (config_wf_iff s.cfg).mp hwf
    obtain ⟨hlo, hhi⟩ := scaled_wrap_range (v := wordOfNat d) hw hm
    rw [toNat_wordOfInt hlo (by omega), scaled_duration_wrap hwf hd hm]

/-- Settles O13: the clauses are the branches of SCALE; only an exact difference out of range faults. -/
theorem scaleSubtractsTheBaseline : Obligations.ScaleSubtractsTheBaseline := by
  refine ⟨fun rd rs => by cases rd <;> cases rs <;> rfl, fun s rd rs => ⟨fun h => withSource_unwritten h _,
    fun v hv hm hlo hhi => ⟨wordOfInt (scaled s.cfg v), ?_, ?_⟩, fun v hv hm hout => ?_,
    fun v hv hm hw => ⟨wordOfInt (scaled s.cfg v), ?_, ?_⟩, fun d hwf hd => duration_difference_range hwf hd⟩⟩
  · rw [scaled_signed hm, toInt_wordOfInt hlo hhi]
  · rw [scale_written hv, if_neg fun ⟨_, ho⟩ => by rw [overflows_iff] at ho; omega]
  · rw [scale_written hv, if_pos ⟨hm, (overflows_iff _).mpr hout⟩]
    rfl
  · obtain ⟨hlo, hhi⟩ := scaled_wrap_range (v := v) hw hm
    rw [toNat_wordOfInt hlo (by omega), scaled_wrap hm]
  · rw [scale_written hv, if_neg (by simp [hm])]

/-! ### The order of durations (O55) -/

/-- From BASELINE on the difference needs no reduction, so both modes keep the order (R177). -/
theorem scaled_duration_lt {c : Config} {d1 d2 : Nat} (hwf : c.wf = true) (hlt : d1 < d2) (hd : d2 < c.modulus)
    (hmode : c.scaleMode = .signed ∨ c.baseline ≤ d1) : scaled c (wordOfNat d1) < scaled c (wordOfNat d2) := by
  have hd1 : d1 < c.modulus := Nat.lt_trans hlt hd
  cases h : c.scaleMode with
  | signed =>
    rw [scaled_duration_signed hwf hd1 h, scaled_duration_signed hwf hd h]
    omega
  | wrap =>
    have hbase : c.baseline ≤ d1 := hmode.resolve_left (by simp [h])
    rw [scaled_duration_wrap hwf hd1 h, scaled_duration_wrap hwf hd h, ← natCast_modulus,
      Int.emod_eq_of_lt (by omega) (by omega), Int.emod_eq_of_lt (by omega) (by omega)]
    omega

/-- Settles O55: the words written stand for the two differences, which are in the durations' order. -/
theorem decisionIsMonotonic : Obligations.DecisionIsMonotonic := by
  intro s1 s2 d1 d2 a b hcfg hwf hlt hd hmode h1 h2
  have hd1 : d1 < s1.cfg.modulus := Nat.lt_trans hlt hd
  have hscaled : (wordOfInt (scaled s1.cfg (wordOfNat d1))).toInt < (wordOfInt (scaled s1.cfg (wordOfNat d2))).toInt := by
    rw [toInt_scaled_duration hwf hd1, toInt_scaled_duration hwf hd]
    exact scaled_duration_lt hwf hlt hd hmode
  have hrun2 := scale_duration (hcfg ▸ hwf) (hcfg ▸ hd) h2 b
  rw [← hcfg] at hrun2 ⊢
  exact ⟨_, _, _, _, scale_duration hwf hd1 h1 b, hrun2, read_write_self _ _ _, read_write_self _ _ _, hscaled,
    fun h => Int.le_trans h (Int.le_of_lt hscaled)⟩

/-! ### The decision (O54, O56) -/

@[simp] theorem isNonzero_wordOfBit (b : Bool) : isNonzero (wordOfBit b) = b := by cases b <;> rfl

/-- The word SCALE leaves for a duration. -/
def scaledWord (c : Config) (d : Nat) : Word := wordOfInt (scaled c (wordOfNat d))

/-- What CMPTH answers for a duration, and OUTSET drives. -/
def decides (c : Config) (d : Nat) : Bool := reachesThreshold c (scaledWord c d)

/-- The register file after the decision on a duration: three writes in order, whichever of the registers coincide. -/
def decisionRegs (c : Config) (d : Nat) (ra rb rc : Reg) (f : RegFile) : RegFile :=
  ((f.write ra (wordOfNat d)).write rb (scaledWord c d)).write rc (wordOfBit (decides c d))

/-- The state after the decision on a duration. -/
def decided (s : State) (a b c : Reg) (d : Nat) : State :=
  { s with
    regs := decisionRegs s.cfg d a b c s.regs
    out := decides s.cfg d
    pc := s.pc + 4
    hist := s.hist ++ [.read d, .out (decides s.cfg d)] }

theorem decides_iff {c : Config} {d : Nat} (hwf : c.wf = true) (hd : d < c.modulus) :
    decides c d = true ↔ (c.threshold : Int) ≤ scaled c (wordOfNat d) := by
  rw [decides, reachesThreshold_iff, scaledWord, toInt_scaled_duration hwf hd]

theorem read_decisionRegs_other {q a b c : Reg} (ha : q ≠ a) (hb : q ≠ b) (hc : q ≠ c) (cfg : Config) (d : Nat)
    (f : RegFile) : (decisionRegs cfg d a b c f).read q = f.read q := by
  rw [decisionRegs, read_write_other _ _ hc, read_write_other _ _ hb, read_write_other _ _ ha]

theorem durrd_completes {s : State} {d : Nat} (h : s.dur = some d) (hsafe : s.en = false ∨ s.cfg.durAtomic = true)
    (rd : Reg) :
    exec (.durrd rd) s =
      .next { s with regs := s.regs.write rd (wordOfNat d), hist := s.hist ++ [.read d], pc := s.pc + 1 } := by
  obtain ⟨-, hread⟩ := readDuration
  obtain ⟨-, -, hcompletes⟩ := hread s rd
  exact hcompletes d h hsafe

/-- Each operation of the decision finds its source written by the one before it, so the four complete in sequence. -/
theorem decision_completes {s : State} {d : Nat} (hwf : s.cfg.wf = true) (h : s.dur = some d) (hd : d < s.cfg.modulus)
    (hsafe : s.en = false ∨ s.cfg.durAtomic = true) (a b c : Reg) :
    execAll (decisionOps a b c) s = .next (decided s a b c d) := by
  refine (execAll_cons (durrd_completes h hsafe a)).trans ?_
  -- `by exact` waits for the state DURRD left, whose configuration is `s`'s.
  refine (execAll_cons (scale_duration (by exact hwf) (by exact hd) (read_write_self _ _ _) b)).trans ?_
  refine (execAll_cons (cmpth_written (read_write_self _ _ _) c)).trans ?_
  refine (execAll_cons (outset_written (read_write_self _ _ _))).trans ?_
  simp [execAll, decided, decisionRegs, decides, scaledWord]

/-- Settles O54: the level driven is the comparison of the mode's difference with the threshold. -/
theorem actuatorDecision : Obligations.ActuatorDecision := by
  intro s a b c d hwf h hd hsafe
  refine ⟨_, decides s.cfg d, decision_completes hwf h hd hsafe a b c, rfl, fun hm => ?_, fun hm => ?_,
    fun q ha hb hc => read_decisionRegs_other ha hb hc _ _ _⟩
  · rw [decides_iff hwf hd, scaled_duration_signed hwf hd hm]
  · rw [decides_iff hwf hd, scaled_duration_wrap hwf hd hm]

theorem read_write (f : RegFile) (r q : Reg) (v : Word) : (f.write r v).read q = if q = r then some v else f.read q := by
  split
  next h => rw [h, read_write_self]
  next h => exact read_write_other f v h

theorem regFile_ext {f g : RegFile} (h : ∀ q, f.read q = g.read q) : f = g := by
  cases f
  cases g
  rw [RegFile.mk.injEq]
  exact ⟨h .r0, h .r1, h .r2, h .r3⟩

/-- Writing the same words again in the same order changes nothing, aliasing included: each register named holds what the
last write to it wrote. -/
theorem decisionRegs_idem (cfg : Config) (d : Nat) (a b c : Reg) (f : RegFile) :
    decisionRegs cfg d a b c (decisionRegs cfg d a b c f) = decisionRegs cfg d a b c f := by
  refine regFile_ext fun q => ?_
  simp only [decisionRegs, read_write]
  by_cases hc : q = c
  · simp only [if_pos hc]
  by_cases hb : q = b
  · simp only [if_neg hc, if_pos hb]
  by_cases ha : q = a
  · simp only [if_neg hc, if_neg hb, if_pos ha]
  · simp only [if_neg hc, if_neg hb, if_neg ha]

/-- Settles O56: the second run finds the duration and the configuration of the first and writes the same words. -/
theorem decisionIsIdempotent : Obligations.DecisionIsIdempotent := by
  intro s a b c d hwf h hd hsafe
  exact ⟨decided s a b c d, decided (decided s a b c d) a b c d, decision_completes hwf h hd hsafe a b c,
    decision_completes (s := decided s a b c d) hwf h hd hsafe a b c, rfl, rfl, rfl, decisionRegs_idem _ _ _ _ _ _, rfl⟩

/-! ### The listing's words (O5) -/

/-- Settles O5: each word is decoded as it stands. -/
theorem writtenOutWordsDecode : Obligations.WrittenOutWordsDecode := by
  unfold Obligations.WrittenOutWordsDecode
  and_intros <;> rfl

end Sys2Proof.Proofs.ActuatorFamily

/-! SUPPORT AND PROOFS of the family 45_sequencer.md. A conditional branch chooses, by its register, between the advance
and a branch to its target; a step writes registers and the duration, and never unwrites them. -/

namespace Sys2Proof.Proofs.SequencerFamily

open Sys2Proof Sys2Proof.Machine Sys2Proof.Laws Sys2Proof.Proofs.StateFamily Sys2Proof.Proofs.EdgeDecoderFamily
  Sys2Proof.Proofs.HandoffFamily Sys2Proof.Proofs.ActuatorFamily

/-! ### What is written stays written (O44) -/

/-- An effect writes at most one register, with a value (R34, R194). -/
theorem apply_keeps_register_written {e : Effect} {s : State} {r : Reg} (h : s.regs.read r ≠ none) :
    (e.apply s).regs.read r ≠ none := by
  cases e with
  | write rd v => exact read_write_written _ _ _ _ h
  | read rd d => exact read_write_written _ _ _ _ h
  | _ => exact h

theorem perform_keeps_register_written {u : Turn} {s t : State} (hen : enabled s u = true) (h : perform u s = .next t)
    {r : Reg} (hr : s.regs.read r ≠ none) : t.regs.read r ≠ none := by
  by_cases hu : u = .foreground
  · subst hu
    obtain ⟨-, e, rfl, -⟩ := perform_foreground hen h
    exact apply_keeps_register_written hr
  · obtain ⟨⟨-, -, hregs, -⟩, -⟩ := block_frame hu h
    rwa [hregs]

/-- Only BODY's capture writes the duration, with a value (R31, R153). -/
theorem perform_keeps_duration_written {u : Turn} {s t : State} (hen : enabled s u = true) (h : perform u s = .next t)
    (hd : s.dur ≠ none) : t.dur ≠ none := by
  by_cases hu : u = .body
  · subst hu
    cases h
    obtain hb | hb | hb := body_cases s <;> rw [hb]
    · exact hd
    · exact Option.some_ne_none _
    · exact hd
  · obtain ⟨-, hdur, -⟩ := perform_frame_of_ne_body hu hen h
    rwa [hdur]

/-- Settles O44: the foreground writes registers and BODY the duration, each with a value. -/
theorem writtenStaysWritten : Obligations.WrittenStaysWritten := by
  intro s t h
  obtain ⟨l, n, -, hen, hp⟩ := step_perform h
  exact ⟨fun _ => perform_keeps_register_written hen hp,
    perform_keeps_duration_written (s := { s with schedule := l, turns := n }) hen hp⟩

/-! ### The words of formats I and J -/

/-- Fields that do not overlap add up to their disjunction. -/
theorem layOut_eq_or {n v : Nat} (op : Nat) (hn : n < 4) (hv : v < 256) :
    layOut op n 0 v = BitVec.ofNat 16 (op * 2048) ||| BitVec.ofNat 16 n <<< 9 ||| BitVec.ofNat 16 v := by
  have hhigh : (op * 4 + n) <<< 9 = op <<< 11 ||| n <<< 9 := by
    rw [← Nat.shiftLeft_add_eq_or_of_lt (by omega)]
    omega
  have hsum : op * 2048 + n * 512 + 0 * 128 + v = op * 2048 ||| n <<< 9 ||| v :=
    calc op * 2048 + n * 512 + 0 * 128 + v = (op * 4 + n) <<< 9 + v := by omega
      _ = (op * 4 + n) <<< 9 ||| v := Nat.shiftLeft_add_eq_or_of_lt (by omega) _
      _ = op * 2048 ||| n <<< 9 ||| v := by rw [hhigh, Nat.shiftLeft_eq op]
  have hshift : BitVec.ofNat 16 (n <<< 9) = BitVec.ofNat 16 n <<< 9 :=
    BitVec.eq_of_toNat_eq (by simp [Nat.mod_eq_of_lt (show n < 65536 by omega)])
  rw [layOut, hsum, BitVec.ofNat_or, BitVec.ofNat_or, hshift]

/-- The byte an offset is cut to is its 8-bit two's complement pattern (R78). -/
theorem ofNat_byteField (off : Int) : BitVec.ofNat 16 (byteField off) = (BitVec.ofInt 8 off).setWidth 16 := by
  apply BitVec.eq_of_toNat_eq
  rw [BitVec.toNat_setWidth, BitVec.toNat_ofInt, BitVec.toNat_ofNat]
  rfl

theorem encode_branch (ra : Reg) (off : Int) :
    encode (.bz ra off) = 0x9000 ||| BitVec.ofNat 16 ra.number <<< 9 ||| (BitVec.ofInt 8 off).setWidth 16 ∧
    encode (.bnz ra off) = 0x9800 ||| BitVec.ofNat 16 ra.number <<< 9 ||| (BitVec.ofInt 8 off).setWidth 16 ∧
    encode (.jmp off) = 0xA000 ||| (BitVec.ofInt 8 off).setWidth 16 := by
  have hword := fun op n hn => layOut_eq_or (n := n) op hn (RowSelects.byteField_lt off)
  rw [← ofNat_byteField]
  have hra := EncodingFamily.number_lt ra
  exact ⟨hword 0x12 _ hra, hword 0x13 _ hra, hword 0x14 0 (by decide)⟩

/-! ### LDI (O17) -/

/-- Settles O17: an immediate is its own low byte, and as a number it fits a register. -/
theorem loadImmediate : Obligations.LoadImmediate := by
  intro s rd imm himm
  have hv : imm < 256 := Nat.lt_succ_of_le himm
  refine ⟨?_, wordOfNat imm, toNat_wordOfNat (by omega), rfl⟩
  rw [encode, Nat.mod_eq_of_lt hv]
  exact layOut_eq_or 0x11 (EncodingFamily.number_lt rd) hv

/-! ### Branches (O18) -/

section Branches

variable {s : State} {z : Int}

theorem branchTo_inside {t : Nat} (ht : (t : Int) = z) (h : t < s.cfg.plen) :
    branchTo z s = .next { s with pc := t } := by
  subst ht
  exact if_neg (by omega)

theorem branchTo_outside (h : z < 0 ∨ (s.cfg.plen : Int) ≤ z) : branchTo z s = .next (s.raise (.fetch z)) := if_pos h

theorem isNonzero_iff (v : Word) : isNonzero v = true ↔ v.toNat ≠ 0 := decide_eq_true_iff

variable {ra : Reg} {v : Word}

/-- BZ branches on zero and advances otherwise (R195). -/
theorem bz_written (h : s.regs.read ra = some v) (off : Int) :
    exec (.bz ra off) s = if v.toNat ≠ 0 then complete s else branchTo (s.pc + off) s := by
  rw [exec, execBz, withSource_written h]
  simp only [isNonzero_iff]
  rfl

/-- BNZ branches on any non-zero value and advances otherwise (R196). -/
theorem bnz_written (h : s.regs.read ra = some v) (off : Int) :
    exec (.bnz ra off) s = if v.toNat ≠ 0 then branchTo (s.pc + off) s else complete s := by
  rw [exec, execBnz, withSource_written h]
  simp only [isNonzero_iff]
  rfl

end Branches

/-- Settles O18: an untaken branch advances without a look at its target, a taken one is a branch to it. -/
theorem conditionalBranches : Obligations.ConditionalBranches := by
  intro s ra off
  refine ⟨fun h => ⟨withSource_unwritten h _, withSource_unwritten h _⟩, fun v hv hne => ?_, fun v hv hz => ?_,
    fun v t hv ht hlt => ⟨fun hz => ?_, fun hne => ?_⟩, fun v hv hout => ⟨fun hz => ?_, fun hne => ?_⟩, fun _ _ => ?_⟩
  · exact (bz_written hv off).trans (if_pos hne)
  · exact (bnz_written hv off).trans (if_neg (not_not_intro hz))
  · rw [bz_written hv, if_neg (not_not_intro hz), branchTo_inside ht hlt]
  · rw [bnz_written hv, if_pos hne, branchTo_inside ht hlt]
  · rw [bz_written hv, if_neg (not_not_intro hz), branchTo_outside hout]
    rfl
  · rw [bnz_written hv, if_pos hne, branchTo_outside hout]
    rfl
  · obtain ⟨hbz, hbnz, -⟩ := encode_branch ra off
    exact ⟨hbz, hbnz⟩

/-! ### JMP and STOP (O19) -/

/-- The foreground's stop gates no step of ENV or HND (R198). -/
theorem enabled_setFstop {u : Turn} (hu : u ≠ .foreground) (s : State) (b : Bool) :
    enabled (s.setFstop b) u = enabled s u := by
  cases u with
  | foreground => exact absurd rfl hu
  | tick | edge | entry | body => rfl

/-- Settles O19: JMP is a branch to its target, and `fstop` gates the foreground alone. -/
theorem jumpAndStop : Obligations.JumpAndStop := by
  refine fun s => ⟨fun off t ht hlt => branchTo_inside ht hlt, fun off hout => branchTo_outside hout, rfl, rfl, ?_,
    fun u hu => enabled_setFstop hu s true, fun off _ _ => ?_⟩
  · simp [enabled]
  · obtain ⟨-, -, hjmp⟩ := encode_branch .r0 off
    exact hjmp

/-! ### When the foreground has a step, and what it runs (O28, O29) -/

theorem foreground_enabled_iff (s : State) :
    enabled s .foreground = true ↔ s.fault = none ∧ s.hact = false ∧ s.fstop = false := by
  simp [enabled, and_assoc]

/-- A fetch past the end of the program raises F_FETCH with the pc (R190). -/
theorem foregroundStep_past_end {s : State} (h : s.cfg.plen ≤ s.pc) :
    foregroundStep s = .next (s.raise (.fetch s.pc)) := by
  simp only [foregroundStep, fetchWord, List.getElem?_eq_none h, trap]

theorem foregroundStep_decoded {s : State} {w : CommandWord} {i : Instr} (hf : s.cfg.prog[s.pc]? = some w)
    (hd : decodeWord w = .ok i) : foregroundStep s = exec i s := by
  simp only [foregroundStep, fetchWord, hf, hd]

/-- Under a well-formed configuration a scheduled step that is enabled is performed in the state with its turn used up. -/
theorem step_of_scheduled {u : Turn} {rest : List Turn} {s : State} (hwf : s.cfg.wf = true) (hf : s.fault = none)
    (hs : s.schedule = u :: rest) (hen : enabled s u = true) : step s = perform u { s with schedule := rest } := by
  have hturn : nextTurn s = u := by rw [nextTurn, hs]
  have htake : takeTurn s = { s with schedule := rest } := by rw [takeTurn, hs]
  simp only [step, hwf, hf, hturn, htake, hen, if_true]

/-- Settles O28: the scheduled foreground step is enabled, and performs what its word decodes to. -/
theorem foregroundStepRunsTheDecodedOperation : Obligations.ForegroundStepRunsTheDecodedOperation := by
  intro s rest w i hwf hf hh hstop hs hw hd
  have hen : enabled s .foreground = true := (foreground_enabled_iff s).mpr ⟨hf, hh, hstop⟩
  rw [step_of_scheduled hwf hf hs hen]
  exact foregroundStep_decoded hw hd

/-- Settles O29: past the end the fetch answers no word, inside it the word at the pc. -/
theorem foregroundFetch : Obligations.ForegroundFetch := fun s =>
  ⟨foreground_enabled_iff s, foregroundStep_past_end, fun h => List.getElem?_eq_getElem h⟩

end Sys2Proof.Proofs.SequencerFamily

/-! SUPPORT AND PROOFS of the family 60_exceptions.md. The order of R219 is a function of the state, which the meaning
of a foreground step follows: each fault then has the cause that made it the first to apply. -/

namespace Sys2Proof.Proofs.ExceptionsFamily

open Sys2Proof Sys2Proof.Machine Sys2Proof.Laws Sys2Proof.Proofs.StateFamily Sys2Proof.Proofs.EncodingFamily
  Sys2Proof.Proofs.EdgeDecoderFamily Sys2Proof.Proofs.HandoffFamily Sys2Proof.Proofs.ActuatorFamily
  Sys2Proof.Proofs.SequencerFamily

/-! ### What an operation reports -/

/-- The answer is a next state: the one that records the given fault and changes nothing else (R211), or one with the
fault record as it was. -/
def Reports : Option FaultReason → State → Result → Prop
  | some r, s, a => a = .next (s.raise r)
  | none, s, a => ∃ t, a = .next t ∧ t.fault = s.fault

theorem Reports.completes {o : Option FaultReason} {s : State} {a : Result} (h : Reports o s a) : ∃ t, a = .next t := by
  cases o with
  | some r => exact ⟨_, h⟩
  | none =>
    obtain ⟨t, ht, -⟩ := h
    exact ⟨t, ht⟩

/-- A next state with a fault, from a state without one, is the one the report raised. -/
theorem Reports.raised {o : Option FaultReason} {s t : State} (h : Reports o s (.next t)) (hs : s.fault = none)
    (ht : t.fault ≠ none) : ∃ r, o = some r ∧ t = s.raise r := by
  cases o with
  | some r => cases h; exact ⟨r, rfl, rfl⟩
  | none =>
    obtain ⟨t', heq, hkeep⟩ := h
    cases heq
    exact absurd (hkeep.trans hs) ht

/-- A check that raises its fault, or else lets an answer through that raises none. -/
theorem reports_check {c : Prop} [Decidable c] {r : FaultReason} {s : State} {a : Result} (h : Reports none s a) :
    Reports (if c then some r else none) s (if c then trap r s else a) := by
  by_cases hc : c
  · rw [if_pos hc, if_pos hc]; rfl
  · rwa [if_neg hc, if_neg hc]

theorem branchTo_reports (z : Int) (s : State) :
    Reports (if z < 0 ∨ (s.cfg.plen : Int) ≤ z then some (.fetch z) else none) s (branchTo z s) :=
  reports_check ⟨_, rfl, rfl⟩

/-- The fault an operation raises: its context, its source registers, its own checks, in this order (R219). -/
def operationFault (s : State) (i : Instr) : Option FaultReason :=
  if i.context = .handler ∧ s.hact = false then some (.context (encode i))
  else
    match i.sources.find? fun r => (s.regs.read r).isNone with
    | some r => some (.unwrittenReg r)
    | none => s.ownFault i

section Operation

variable {s : State} {i : Instr}

/-- A handler-only operation has one check, its context. -/
theorem handlerOnly_reports (f : State → State) (hi : i.context = .handler) (hown : s.ownFault i = none)
    (hsources : i.sources = []) (hf : (f s).fault = s.fault) : Reports (operationFault s i) s (handlerOnly i f s) := by
  cases hh : s.hact with
  | false => simp [operationFault, hi, hh, handlerOnly, trap, Reports]
  | true => simp [operationFault, hh, hsources, hown, handlerOnly, Reports, hf]

/-- An operation of the foreground's own with no source register reports what its own checks raise. -/
theorem operationFault_own (hi : i.context = .foreground) (hsources : i.sources = []) :
    operationFault s i = s.ownFault i := by
  simp [operationFault, hi, hsources]

/-- A source register is checked before the operation's own checks, which then find it written. -/
theorem withSource_reports {r : Reg} {k : Word → Result} (hi : i.context = .foreground) (hsources : i.sources = [r])
    (hk : ∀ v, s.regs.read r = some v → Reports (s.ownFault i) s (withSource r s k)) :
    Reports (operationFault s i) s (withSource r s k) := by
  cases hr : s.regs.read r with
  | none =>
    have hfault : operationFault s i = some (.unwrittenReg r) := by simp [operationFault, hi, hsources, hr]
    rw [hfault]
    exact withSource_unwritten hr k
  | some v =>
    have hfault : operationFault s i = s.ownFault i := by simp [operationFault, hi, hsources, hr]
    rw [hfault]
    exact hk v hr

end Operation

/-! The own checks of the operations that have some (R219, point 5). -/

theorem durrd_reports (s : State) (rd : Reg) : Reports (s.ownFault (.durrd rd)) s (exec (.durrd rd) s) := by
  cases hd : s.dur with
  | none => simp only [State.ownFault, hd]; exact durrd_unwritten hd rd
  | some d =>
    rw [durrd_written hd]
    simp only [State.ownFault, hd]
    exact reports_check ⟨_, rfl, rfl⟩

theorem scale_reports {s : State} {rs : Reg} {v : Word} (h : s.regs.read rs = some v) (rd : Reg) :
    Reports (s.ownFault (.scale rd rs)) s (exec (.scale rd rs) s) := by
  rw [scale_written h]
  simp only [State.ownFault, h, overflows_iff]
  exact reports_check ⟨_, rfl, rfl⟩

theorem bz_reports {s : State} {ra : Reg} {v : Word} (h : s.regs.read ra = some v) (off : Int) :
    Reports (s.ownFault (.bz ra off)) s (exec (.bz ra off) s) := by
  rw [bz_written h]
  by_cases hv : v = 0
  · subst hv
    simpa [State.ownFault, h] using branchTo_reports (s.pc + off) s
  · have hne : v.toNat ≠ 0 := fun hz => hv (BitVec.eq_of_toNat_eq hz)
    simp only [State.ownFault, h, Option.some.injEq, hv, false_and, if_false, if_pos hne]
    exact ⟨_, rfl, rfl⟩

theorem bnz_reports {s : State} {ra : Reg} {v : Word} (h : s.regs.read ra = some v) (off : Int) :
    Reports (s.ownFault (.bnz ra off)) s (exec (.bnz ra off) s) := by
  rw [bnz_written h]
  by_cases hv : v = 0
  · subst hv
    simp only [State.ownFault, h, ne_eq, not_true_eq_false, false_and, if_false]
    exact ⟨_, rfl, rfl⟩
  · have hne : v.toNat ≠ 0 := fun hz => hv (BitVec.eq_of_toNat_eq hz)
    have hread : s.regs.read ra ≠ some 0 := fun hz => hv (Option.some.inj (h.symm.trans hz))
    simp only [State.ownFault, hread, ne_eq, not_false_eq_true, true_and, if_pos hne]
    exact branchTo_reports (s.pc + off) s

/-- In every state, in either context, an operation raises the first fault that applies to it, or none. -/
theorem exec_reports (i : Instr) (s : State) : Reports (operationFault s i) s (exec i s) := by
  cases i with
  | tstart | tstop | tread | treset | esample | rdyset | durwr => exact handlerOnly_reports _ rfl rfl rfl rfl
  | edisable =>
    have hnone : operationFault s .edisable = none := by
      simp [operationFault, Instr.context, Instr.sources, State.ownFault]
    rw [hnone, exec, execEdisable]
    cases s.hact <;> exact ⟨_, rfl, rfl⟩
  | eenable | eclrpend | rdyclr | rdytst | ldi | stop =>
    rw [operationFault_own rfl rfl]
    exact ⟨_, rfl, rfl⟩
  | durrd rd => rw [operationFault_own rfl rfl]; exact durrd_reports s rd
  | jmp off => rw [operationFault_own rfl rfl]; exact branchTo_reports (s.pc + off) s
  | scale rd rs => exact withSource_reports rfl rfl fun v hv => scale_reports hv rd
  | cmpth rd rs => exact withSource_reports rfl rfl fun v hv => ⟨_, cmpth_written hv rd, rfl⟩
  | outset rs => exact withSource_reports rfl rfl fun v hv => ⟨_, outset_written hv, rfl⟩
  | bz ra off => exact withSource_reports rfl rfl fun v hv => bz_reports hv off
  | bnz ra off => exact withSource_reports rfl rfl fun v hv => bnz_reports hv off

/-- Settles O21: a report is a next state. -/
theorem everyOperationAnswersANextState : Obligations.EveryOperationAnswersANextState :=
  fun i s => (exec_reports i s).completes

/-- Settles O25: the context is the first of an operation's checks. -/
theorem handlerOnlyOperationsFaultInTheForeground : Obligations.HandlerOnlyOperationsFaultInTheForeground := by
  refine ⟨fun i => by cases i <;> simp [Instr.context], fun i s hi hs => ?_⟩
  have hfault : operationFault s i = some (.context (encode i)) := if_pos ⟨hi, hs⟩
  have h := exec_reports i s
  rw [hfault] at h
  exact h

/-! ### The first fault of a foreground step (O24) -/

section FirstFault

variable {s : State}

theorem firstFault_past_end (h : s.cfg.plen ≤ s.pc) : s.firstFault = some (.fetch s.pc) := if_pos h

theorem firstFault_illegal {w : CommandWord} {e : DecodeError} (hf : fetchWord s.cfg.prog s.pc = some w)
    (hd : decodeWord w = .error e) : s.firstFault = some (.illegal w) := by
  have hpc : ¬ s.cfg.plen ≤ s.pc := Nat.not_le.mpr ((fetchWord_some_iff _ _).mp ⟨w, hf⟩)
  simp only [State.firstFault, if_neg hpc, hf, hd]

/-- A decoded word is its operation's encoding, so F_CONTEXT records the fetched word (R210, log entry 13). -/
theorem firstFault_decoded {w : CommandWord} {i : Instr} (hf : fetchWord s.cfg.prog s.pc = some w)
    (hd : decodeWord w = .ok i) (hs : s.hact = false) : s.firstFault = operationFault s i := by
  have hpc : ¬ s.cfg.plen ≤ s.pc := Nat.not_le.mpr ((fetchWord_some_iff _ _).mp ⟨w, hf⟩)
  obtain ⟨-, rfl⟩ := decodedWordsEncodeBack w i hd
  simp only [State.firstFault, if_neg hpc, hf, hd]
  exact ite_congr (by simp only [hs, and_true]) (fun _ => rfl) fun _ => rfl

/-- Outside the handler the foreground's step reports the first fault in the order of R219. -/
theorem foregroundStep_reports (hs : s.hact = false) : Reports s.firstFault s (foregroundStep s) := by
  cases hf : fetchWord s.cfg.prog s.pc with
  | none =>
    have hpc : s.cfg.plen ≤ s.pc := List.getElem?_eq_none_iff.mp hf
    rw [firstFault_past_end hpc]
    exact foregroundStep_past_end hpc
  | some w =>
    cases hd : decodeWord w with
    | error e =>
      rw [firstFault_illegal hf hd]
      exact foregroundStep_illegal hf hd
    | ok i =>
      rw [firstFault_decoded hf hd hs, foregroundStep_decoded hf hd]
      exact exec_reports i s

end FirstFault

/-- Settles O24: the state the step reports in records the first fault, or none as before. -/
theorem firstFaultInOrderIsReported : Obligations.FirstFaultInOrderIsReported := by
  intro s hs hf
  have h := foregroundStep_reports hs
  cases hr : s.firstFault with
  | some r =>
    rw [hr] at h
    exact ⟨_, h, rfl⟩
  | none =>
    rw [hr] at h
    obtain ⟨t, ht, hkeep⟩ := h
    exact ⟨t, ht, by rw [hkeep, hf]; rfl⟩

/-! ### A fault is sticky and changes nothing else (O22) -/

/-- A foreground step, in either context, that leads to a fault raises it. -/
theorem foregroundStep_raises {s t : State} (h : foregroundStep s = .next t) (hs : s.fault = none)
    (ht : t.fault ≠ none) : ∃ r, t = s.raise r := by
  obtain ⟨-, rfl⟩ | ⟨w, -, -, -, rfl⟩ | ⟨-, i, -, -, hexec⟩ := foregroundStep_next h
  · exact ⟨_, rfl⟩
  · exact ⟨_, rfl⟩
  · obtain ⟨r, -, rfl⟩ := (hexec ▸ exec_reports i s).raised hs ht
    exact ⟨r, rfl⟩

/-- After a fault no agent has a step (R211). -/
theorem fault_none_of_enabled {s : State} {u : Turn} (h : enabled s u = true) : s.fault = none := by
  cases u with
  | foreground =>
    obtain ⟨hf, -⟩ := foreground_enabled h
    exact hf
  | tick | edge => exact Option.isNone_iff_eq_none.mp h
  | entry =>
    obtain ⟨hf, -⟩ := entry_enabled h
    exact hf
  | body =>
    obtain ⟨hf, -⟩ := (body_enabled_iff s).mp h
    exact hf

/-- Settles O22: only the foreground's steps raise, and every step is gated by the fault record. -/
theorem faultsAreStickyAndChangeNothingElse : Obligations.FaultsAreStickyAndChangeNothingElse := by
  refine ⟨fun u s t hs h ht => ?_, fun s r hr => ⟨?_, fun t h => ?_, by simp [State.ended, hr]⟩⟩
  · by_cases hu : u = .foreground
    · subst hu
      exact foregroundStep_raises h hs ht
    · obtain ⟨-, -, hkeep⟩ := block_frame hu h
      exact absurd (hkeep.trans hs) ht
  · refine List.filter_eq_nil_iff.mpr fun u _ hen => ?_
    cases hr.symm.trans (fault_none_of_enabled hen)
  · obtain ⟨-, hf, -⟩ := step_next h
    cases hr.symm.trans hf

/-! ### The cause of each fault (O23) -/

/-- The causes of R210: what holds in a state outside the handler whose foreground step raises the fault. -/
inductive Cause (s : State) : FaultReason → Prop where
  | pastEnd : s.cfg.plen ≤ s.pc → Cause s (.fetch s.pc)
  | illegal {w} : fetchWord s.cfg.prog s.pc = some w → s.operation = none → Cause s (.illegal w)
  | context {w i} : fetchWord s.cfg.prog s.pc = some w → s.operation = some i → i.context = .handler →
      Cause s (.context w)
  | unwrittenReg {i q} : s.operation = some i → q ∈ i.sources → s.regs.read q = none → Cause s (.unwrittenReg q)
  | unwrittenDur {rd} : s.operation = some (.durrd rd) → s.dur = none → Cause s .unwrittenDur
  | raceDur {rd d} : s.operation = some (.durrd rd) → s.dur = some d → s.en = true → s.cfg.durAtomic = false →
      Cause s (.raceDur d)
  | overflow {rd rs v} : s.operation = some (.scale rd rs) → s.regs.read rs = some v → s.cfg.scaleMode = .signed →
      v.toInt - s.cfg.baseline < -(2 ^ 31) ∨ 2 ^ 31 ≤ v.toInt - s.cfg.baseline →
      Cause s (.overflow (v.toInt - s.cfg.baseline))
  | branch {off} :
      (s.operation = some (.jmp off) ∨
        ∃ ra, s.operation = some (.bz ra off) ∧ s.regs.read ra = some 0 ∨
          s.operation = some (.bnz ra off) ∧ ∃ v, v ≠ 0 ∧ s.regs.read ra = some v) →
      s.pc + off < 0 ∨ (s.cfg.plen : Int) ≤ s.pc + off → Cause s (.fetch (s.pc + off))

section Cause

variable {s : State} {r : FaultReason}

theorem eq_of_check {c : Prop} [Decidable c] {q : FaultReason} (h : (if c then some q else none) = some r) :
    c ∧ r = q := by
  simpa [eq_comm] using h

/-- A fault of an operation's own checks has its cause, if every source register is written. -/
theorem ownFault_cause {i : Instr} (hop : s.operation = some i) (hsources : ∀ q ∈ i.sources, s.regs.read q ≠ none)
    (h : s.ownFault i = some r) : Cause s r := by
  cases i with
  | durrd rd =>
    cases hd : s.dur with
    | none =>
      simp only [State.ownFault, hd] at h
      cases h
      exact .unwrittenDur hop hd
    | some d =>
      simp only [State.ownFault, hd] at h
      obtain ⟨⟨hen, hatomic⟩, rfl⟩ := eq_of_check h
      exact .raceDur hop hd hen hatomic
  | scale rd rs =>
    obtain ⟨v, hv⟩ := Option.ne_none_iff_exists'.mp (hsources rs (by simp [Instr.sources]))
    simp only [State.ownFault, hv] at h
    obtain ⟨⟨hmode, hrange⟩, rfl⟩ := eq_of_check h
    exact .overflow hop hv hmode hrange
  | jmp off =>
    obtain ⟨hout, rfl⟩ := eq_of_check h
    exact .branch (.inl hop) hout
  | bz ra off =>
    obtain ⟨⟨hzero, hout⟩, rfl⟩ := eq_of_check h
    exact .branch (.inr ⟨ra, .inl ⟨hop, hzero⟩⟩) hout
  | bnz ra off =>
    obtain ⟨v, hv⟩ := Option.ne_none_iff_exists'.mp (hsources ra (by simp [Instr.sources]))
    obtain ⟨⟨hne, hout⟩, rfl⟩ := eq_of_check h
    exact .branch (.inr ⟨ra, .inr ⟨hop, v, fun hz => hne (hz ▸ hv), hv⟩⟩) hout
  | _ => cases h

/-- A fault of an operation the foreground fetched has its cause. -/
theorem operationFault_cause {w : CommandWord} {i : Instr} (hf : fetchWord s.cfg.prog s.pc = some w)
    (hd : decodeWord w = .ok i) (h : operationFault s i = some r) : Cause s r := by
  have hop : s.operation = some i := by simp only [State.operation, hf, hd]
  obtain ⟨-, hw⟩ := decodedWordsEncodeBack w i hd
  unfold operationFault at h
  split at h
  case isTrue hc =>
    cases h
    exact hw ▸ .context hf hop hc.1
  case isFalse =>
    split at h
    next q hq =>
      cases h
      exact .unwrittenReg hop (List.mem_of_find?_eq_some hq) (by simpa using List.find?_some hq)
    next hall => exact ownFault_cause hop (by simpa using hall) h

/-- The first fault that applies has its cause. -/
theorem firstFault_cause (hs : s.hact = false) (h : s.firstFault = some r) : Cause s r := by
  cases hf : fetchWord s.cfg.prog s.pc with
  | none =>
    have hpc : s.cfg.plen ≤ s.pc := List.getElem?_eq_none_iff.mp hf
    cases (firstFault_past_end hpc).symm.trans h
    exact .pastEnd hpc
  | some w =>
    cases hd : decodeWord w with
    | error e =>
      cases (firstFault_illegal hf hd).symm.trans h
      exact .illegal hf (by simp only [State.operation, hf, hd])
    | ok i => exact operationFault_cause hf hd ((firstFault_decoded hf hd hs).symm.trans h)

end Cause

/-- Settles O23: the fault recorded is the first that applies, and the rows of R210 are the causes of that. -/
theorem eachFaultHasItsCause : Obligations.EachFaultHasItsCause := by
  refine ⟨fun w z q v => rfl, fun u s t hu h => (block_frame hu h).2.2, fun s t r hs hf h ht => ?_⟩
  have hreports := foregroundStep_reports hs
  rw [h] at hreports
  obtain ⟨q, hfirst, rfl⟩ := hreports.raised hf (ht ▸ Option.some_ne_none r)
  cases ht
  refine ⟨rfl, rfl, ?_⟩
  cases firstFault_cause hs hfirst with
  | pastEnd hpc => exact .inl ⟨rfl, hpc⟩
  | illegal hw hop => exact ⟨hw, hop⟩
  | context hw hop hi => exact ⟨hw, _, hop, hi⟩
  | unwrittenReg hop hq hr => exact ⟨hr, _, hop, hq⟩
  | unwrittenDur hop hd => exact ⟨hd, _, hop⟩
  | raceDur hop hd hen hatomic => exact ⟨hd, hen, hatomic, _, hop⟩
  | overflow hop hv hmode hrange => exact ⟨hmode, hrange, _, _, _, hop, hv, rfl⟩
  | branch htaken hout => exact .inr ⟨hout, _, rfl, htaken⟩

/-! ### What the foreground and the block do not read (O27, O48) -/

/-- Settles O27: an effect is chosen by the foreground's view, and touches nothing of the measurement. -/
theorem foregroundCannotReadTheMeasurement : Obligations.ForegroundCannotReadTheMeasurement := by
  intro s line cnt run d hlevel hcap hs
  obtain ⟨e, -, he⟩ := foregroundStep_effect hs
  have hview : SameView s (s.withMeasurement line cnt run d hlevel hcap) :=
    ⟨rfl, rfl, rfl, rfl, rfl, rfl, rfl, rfl, rfl, rfl, rfl, rfl⟩
  rw [he _ hview, he s (.refl s), mapNext]
  cases e <;> rfl

section Foreground

variable (s : State) (pc : Nat) (regs : RegFile) (fstop out : Bool)

theorem tick_withForeground :
    tick (s.withForeground pc regs fstop out) = (tick s).withForeground pc regs fstop out := by
  cases hr : s.run with
  | true => rw [tick_running hr, tick_running (s := s.withForeground pc regs fstop out) hr]; rfl
  | false => rw [tick_stopped hr, tick_stopped (s := s.withForeground pc regs fstop out) hr]; rfl

theorem body_withForeground :
    body (s.withForeground pc regs fstop out) = (body s).withForeground pc regs fstop out := by
  unfold body
  dsimp only [State.withForeground, sampleLine]
  cases dispatch s.cfg.edgePolicy s.dstate s.line <;> rfl

end Foreground

/-- Settles O48: the steps of ENV and HND, and what gates them, agent by agent. -/
theorem blockIgnoresTheForeground : Obligations.BlockIgnoresTheForeground := by
  intro u s pc regs fstop out hu
  cases u with
  | foreground => exact absurd rfl hu
  | tick => exact ⟨rfl, congrArg Host.Outcome.next (tick_withForeground s pc regs fstop out)⟩
  | edge | entry => exact ⟨rfl, rfl⟩
  | body => exact ⟨rfl, congrArg Host.Outcome.next (body_withForeground s pc regs fstop out)⟩

/-! ### Which step is taken (O35, O36) -/

theorem step_of_enabled {s : State} (hwf : s.cfg.wf = true) (hf : s.fault = none)
    (hen : enabled s (nextTurn s) = true) : step s = perform (nextTurn s) (takeTurn s) := by
  simp only [step, hwf, hf, hen, if_true]

theorem step_of_disabled {s : State} (hwf : s.cfg.wf = true) (hf : s.fault = none)
    (hen : enabled s (nextTurn s) = false) : step s = .fault (.notEnabled (nextTurn s)) := by
  simp [step, hwf, hf, hen]

/-- Settles O35: the turn is the head of the schedule, and `step` checks that it is enabled. -/
theorem anyEnabledStepMayBeNext : Obligations.AnyEnabledStepMayBeNext := by
  intro s u rest hwf hf hs
  have hturn : nextTurn s = u := by rw [nextTurn, hs]
  refine ⟨step_of_scheduled hwf hf hs, fun hen => ?_⟩
  subst hturn
  exact step_of_disabled hwf hf hen

/-- Whatever the free value, the step picked is an enabled one: TICK is always among them (R100). -/
theorem free_turn_enabled {s : State} (hf : s.fault = none) (hs : s.schedule = []) : enabled s (nextTurn s) = true := by
  have htick : Turn.tick ∈ enabledTurns s := List.mem_filter.mpr ⟨by simp [allTurns], by simp [enabled, hf]⟩
  have hlt : Config.freeTurn s.turns % (enabledTurns s).length < (enabledTurns s).length :=
    Nat.mod_lt _ (List.length_pos_of_mem htick)
  have hturn : nextTurn s = (enabledTurns s)[Config.freeTurn s.turns % (enabledTurns s).length] := by
    rw [nextTurn, hs]
    exact (List.getElem_eq_getD Turn.tick).symm
  have hmem : nextTurn s ∈ enabledTurns s := hturn ▸ List.getElem_mem hlt
  exact (List.mem_filter.mp hmem).2

/-- Settles O36: the pick is enabled, and an enabled step has a meaning. -/
theorem unscheduledStepsAreEnabledSteps : Obligations.UnscheduledStepsAreEnabledSteps := by
  intro s hwf hf hs
  have hen := free_turn_enabled hf hs
  have htake : takeTurn s = { s with turns := s.turns + 1 } := by rw [takeTurn, hs]
  have hstep := step_of_enabled hwf hf hen
  obtain ⟨t, ht⟩ := perform_completes (congrFun (enabled_takeTurn s) _ ▸ hen)
  exact ⟨hen, htake ▸ hstep, t, hstep.trans ht⟩

/-! ### A handler run (O47, O59) -/

/-- During a handler run only BODY returns from it and writes the gate (R221, R225). -/
theorem perform_during_handler {u : Turn} {s t : State} (hs : s.hact = true) (hen : enabled s u = true)
    (h : perform u s = .next t) : (t.hact = false ↔ u = .body) ∧ (t.en = s.en ∨ u = .body) := by
  cases u with
  | foreground => simp [enabled, hs] at hen
  | entry => simp [enabled, hs] at hen
  | tick => cases h; simp [hs]
  | edge draw => cases h; simp [edge, hs]
  | body => cases h; exact ⟨iff_of_true rfl rfl, .inr rfl⟩

/-- Settles O47: a step of a handler run is one of ENV, or BODY. -/
theorem handlerRunExcludesTheForeground : Obligations.HandlerRunExcludesTheForeground := by
  intro s hs
  have hfg : enabled s .foreground = false := by simp [enabled, hs]
  refine ⟨hfg, by simp [enabled, hs], fun t h => ?_⟩
  obtain ⟨l, n, hf, hen, hp⟩ := step_perform h
  have hu : nextTurn s ≠ .foreground := fun hu => Bool.eq_false_iff.mp hfg (hu ▸ hen)
  obtain ⟨⟨hout, hpc, hregs, hstop, -⟩, -, hfault⟩ := block_frame hu hp
  obtain ⟨hreturn, hgate⟩ := perform_during_handler (s := { s with schedule := l, turns := n }) hs hen hp
  exact ⟨hpc, hregs, hstop, hout, hfault.trans hf, hreturn, hgate⟩

/-- While the handler is active HND has a step: its BODY (R131). -/
theorem hnd_enabled_in_handler {s : State} (hf : s.fault = none) (hs : s.hact = true) : agentEnabled .hnd s = true :=
  List.any_eq_true.mpr
    ⟨.body, List.mem_filter.mpr ⟨by simp [allTurns], (body_enabled_iff s).mpr ⟨hf, hs⟩⟩, rfl⟩

/-- HND's one step in a handler run is BODY. -/
theorem hnd_turn_in_handler {s : State} {u : Turn} (hs : s.hact = true) (hen : enabled s u = true)
    (hu : u.agent = .hnd) : u = .body := by
  cases u with
  | body => rfl
  | entry => simp [enabled, hs] at hen
  | foreground | tick | edge => cases hu

/-- Settles O59: a run that never ended would have BODY enabled for ever, so fairness to HND would take it, and BODY
returns. -/
theorem handlerRunsEndInFairExecutions : Obligations.HandlerRunsEndInFairExecutions := by
  rintro σ τ ⟨hexec, hhnd, -⟩ n -
  refine Classical.byContradiction fun hnever => ?_
  have hact : ∀ m, n ≤ m → (σ m).hact = true := fun m hm =>
    eq_true_of_ne_false fun h => hnever ⟨m, hm, h⟩
  obtain ⟨m, hm, hagent⟩ := hhnd n fun m hm => by
    obtain ⟨-, hen, -⟩ := hexec m
    exact hnd_enabled_in_handler (fault_none_of_enabled hen) (hact m hm)
  obtain ⟨-, hen, hp⟩ := hexec m
  have hreturn := (perform_during_handler (hact m hm) hen hp).1.mpr (hnd_turn_in_handler (hact m hm) hen hagent)
  exact hnever ⟨m + 1, Nat.le_succ_of_le hm, hreturn⟩

end Sys2Proof.Proofs.ExceptionsFamily

/-! SUPPORT AND PROOFS of the family 70_reset_and_hazards.md. A launch state holds the observer's launch values over an
empty history. Consuming and re-arming is the decision between a clear of the ready flag and a re-arm, and the decision
writes neither the block nor the handoff. -/

namespace Sys2Proof.Proofs.ResetFamily

open Sys2Proof Sys2Proof.Machine Sys2Proof.Proofs.EdgeDecoderFamily Sys2Proof.Proofs.HandoffFamily
  Sys2Proof.Proofs.ActuatorFamily

/-! ### Launch states (O38, O39) -/

/-- The fixed launch values are the ones the observer starts from (R241). -/
theorem monitor_of_isLaunch {s : State} (h : s.IsLaunch) : s.monitor = Monitor.launch := by
  simp [State.monitor, Monitor.launch, h.rdy, h.ovr, h.dur, h.en, h.dstate, h.run, h.hact, h.fault]

theorem historyAgrees_of_isLaunch {s : State} (h : s.IsLaunch) : s.HistoryAgrees := by
  rw [State.HistoryAgrees, h.hist, monitor_of_isLaunch h]
  rfl

/-- `State.launch` fixes what R241 fixes, so the draws' ranges and the configuration are all that is asked. -/
theorem launch_isLaunch {c : Config} {cnt hcap : Nat} (hwf : c.wf = true) (hcnt : cnt < c.modulus)
    (hhcap : hcap < c.modulus) (line pf out hlevel : Bool) : (State.launch c line pf out hlevel cnt hcap).IsLaunch where
  cfg_wf := hwf
  dstate := rfl
  en := rfl
  rdy := rfl
  hact := rfl
  run := rfl
  fstop := rfl
  pc := rfl
  dur := rfl
  regs := rfl
  fault := rfl
  ovr := rfl
  hist := rfl
  cnt := hcnt
  hcap := hhcap

/-- Settles O39: the launch values meet the invariant and are the observer's own. -/
theorem launchStatesMeetTheInvariant : Obligations.LaunchStatesMeetTheInvariant :=
  ⟨fun _ h => ⟨inv_of_isLaunch h, historyAgrees_of_isLaunch h⟩,
    fun _ line pf out hlevel _ _ hwf hcnt hhcap => launch_isLaunch hwf hcnt hhcap line pf out hlevel⟩

theorem resetConfig_wf : resetConfig.wf = true := by decide

/-- Settles O38: reset is the launch of a well-formed configuration with zero draws. -/
theorem resetIsALaunchState : Obligations.ResetIsALaunchState := by
  have hreset : State.reset.IsLaunch :=
    launch_isLaunch resetConfig_wf (Nat.two_pow_pos _) (Nat.two_pow_pos _) false false false false
  exact ⟨hreset, inv_of_isLaunch hreset, historyAgrees_of_isLaunch hreset⟩

/-! ### Consuming and re-arming (O57) -/

/-- A run of a listing that completes goes on with what follows the listing. -/
theorem execAll_append {is : List Instr} {s t : State} (h : execAll is s = .next t) (js : List Instr) :
    execAll (is ++ js) s = execAll js t := by
  induction is generalizing s with
  | nil => cases h; rfl
  | cons i is ih =>
    rw [execAll] at h
    rw [List.cons_append, execAll]
    cases hi : exec i s with
    | next u =>
      rw [hi] at h
      exact ih h
    | fault r => rw [hi] at h; cases h
    | refused r => rw [hi] at h; cases h

/-- The state RDYCLR leaves (R151). -/
def consumed (s : State) : State := { s with rdy := false, pc := s.pc + 1, hist := s.hist ++ [.clr] }

/-- The state ECLRPEND and then EENABLE, the pseudo-instruction ARM, leave (R124, R123, R84). -/
def rearmed (s : State) : State :=
  { s with pf := false, en := true, pc := s.pc + 2, hist := s.hist ++ [.clrPend, .arm] }

theorem rearm_completes (s : State) : execAll [.eclrpend, .eenable] s = .next (rearmed s) := by
  refine (execAll_cons rfl).trans ((execAll_cons rfl).trans ?_)
  simp [execAll, rearmed, State.setPf, State.setEn, State.emit, State.advance]

/-- RDYCLR keeps the duration and the disarmed gate the decision reads, so the seven operations complete in sequence. -/
theorem consumeAndRearm_completes {s : State} {d : Nat} (hwf : s.cfg.wf = true) (h : s.dur = some d)
    (hd : d < s.cfg.modulus) (hen : s.en = false) (a b c : Reg) :
    execAll (.rdyclr :: decisionOps a b c ++ [.eclrpend, .eenable]) s =
      .next (rearmed (decided (consumed s) a b c d)) :=
  have hdecision : execAll (decisionOps a b c) (consumed s) = .next (decided (consumed s) a b c d) :=
    decision_completes (s := consumed s) hwf h hd (.inl hen) a b c
  calc execAll (.rdyclr :: decisionOps a b c ++ [.eclrpend, .eenable]) s
      = execAll (decisionOps a b c ++ [.eclrpend, .eenable]) (consumed s) := execAll_cons rfl
    _ = execAll [.eclrpend, .eenable] (decided (consumed s) a b c d) := execAll_append hdecision _
    _ = .next (rearmed (decided (consumed s) a b c d)) := rearm_completes _

/-- Settles O57: the clear restores the ready flag, the re-arm the gate and the pending flag; the decoder, the handler
and the timer are as the capture left them, at their launch values. -/
theorem consumeAndRearmRestoresLaunchValues : Obligations.ConsumeAndRearmRestoresLaunchValues := by
  intro s a b c d hwf h hd hdstate hrun hhact hen
  refine ⟨_, consumeAndRearm_completes hwf h hd hen a b c, ?_⟩
  simpa [rearmed, decided, consumed] using ⟨hdstate, hhact, hrun⟩

end Sys2Proof.Proofs.ResetFamily
